-- ==== Sys2Proof/Word.lean ====
section
/-! DEFINITION. The widths of MFP-EPC (00_scope.md R8, R9): every value is unsigned, bit 0 is the least significant. -/

namespace Sys2Proof

/-- An 8-bit sample, operand or response byte (R8). -/
abbrev Byte := BitVec 8

/-- A 16-bit command word or host register (R8, R70). -/
abbrev Word := BitVec 16

/-- A conversion result, bits [10:0] (R8, 90 C2). -/
abbrev AdcValue := BitVec 11

/-- A converter channel, 0..3 (R71). -/
abbrev Channel := BitVec 2

/-- A host register address (R50). -/
abbrev HostAddr := BitVec 8

/-- A position inside a byte. -/
abbrev BitPos := Fin 8

/-- The eight positions of a byte, lowest first. -/
def bitPositions : List BitPos := [0, 1, 2, 3, 4, 5, 6, 7]

end Sys2Proof
end

