-- ==== Sys2Proof/Syntax.lean ====
section
/-! DEFINITION. The commands of MFP-EPC, one constructor per row of the opcode table (30_encoding.md R72), and the lines
of its assembly text (R75, R76). Operands carry their width, so every `Instr` is well-formed; what can be ill-formed is
a source line (`AsmLine`) and a configuration. -/

namespace Sys2Proof

/-- A command (R72). -/
inductive Instr where
  /-- NOP (R108) -/
  | nop
  /-- RECORD d: record a given sample (R122) -/
  | record (d : Byte)
  /-- KEYSAMPLE: read the key shift register and record the sample (R143) -/
  | keysample
  /-- DBREAD: read the debounced state (R123) -/
  | dbread
  /-- UPDEDGE: update the edge masks (R124) -/
  | updedge
  /-- LEDWRITE d: write one byte to the LED shift register (R145) -/
  | ledwrite (d : Byte)
  /-- ADCREAD c: read converter channel c (R171) -/
  | adcread (c : Channel)
  /-- XFER d: generic 8-bit exchange (R147) -/
  | xfer (d : Byte)
deriving DecidableEq, Repr

/-- The mnemonics of R72. -/
inductive Mnemonic where
  | nop | record | keysample | dbread | updedge | ledwrite | adcread | xfer
deriving DecidableEq, Repr

/-- One line of assembly text: a command with the number written after it, if any (R75), or one of the two
pseudo-lines that encode to no word (R76). -/
inductive AsmLine where
  | command (m : Mnemonic) (operand : Option Nat)
  /-- one cycle with `sample_tick_i = 1` -/
  | tick
  /-- polling STATUS until the command before it has completed (R107) -/
  | wait
deriving DecidableEq, Repr

end Sys2Proof
end

