-- ==== Sys2Proof/Decode.lean ====
section
/-! DEFINITION. The command encoding CMD16 (30_encoding.md R70-R74): the decoder, total on 16-bit words and rejecting by
name, and the encoder. -/

namespace Sys2Proof

/-- Field `OPC`, bits [15:12] (R70). -/
def opcOf (w : Word) : BitVec 4 := w.extractLsb' 12 4

/-- Field `ARGZ`, bits [11:10] (R70). -/
def argzOf (w : Word) : BitVec 2 := w.extractLsb' 10 2

/-- Field `CH`, bits [9:8] (R70, R71). -/
def chOf (w : Word) : Channel := w.extractLsb' 8 2

/-- Field `DATA`, bits [7:0] (R70, R71). -/
def dataOf (w : Word) : Byte := w.extractLsb' 0 8

/-- Why a word is illegal (R73; the two names are the model's, log 19). -/
inductive Reject where
  /-- `OPC` is 0x8..0xF -/
  | noSuchOpcode
  /-- `OPC` is 0x0..0x7 and a must-be-zero field is not zero -/
  | nonzeroField
deriving DecidableEq, Repr

/-- Take the instruction when its must-be-zero fields are zero. -/
def whenZero (zero : Bool) (i : Instr) : Except Reject Instr := if zero then .ok i else .error .nonzeroField

/-- The decoder: the row of R72 that the word matches, or the name of its rejection (R73). -/
def decode (w : Word) : Except Reject Instr :=
  let argz := decide (argzOf w = 0)
  let ch := decide (chOf w = 0)
  let data := decide (dataOf w = 0)
  match (opcOf w).toNat with
  | 0 => whenZero (argz && ch && data) .nop
  | 1 => whenZero (argz && ch) (.record (dataOf w))
  | 2 => whenZero (argz && ch && data) .keysample
  | 3 => whenZero (argz && ch && data) .dbread
  | 4 => whenZero (argz && ch && data) .updedge
  | 5 => whenZero (argz && ch) (.ledwrite (dataOf w))
  | 6 => whenZero (argz && data) (.adcread (chOf w))
  | 7 => whenZero (argz && ch) (.xfer (dataOf w))
  | _ => .error .noSuchOpcode

/-- A word laid out from its four fields (R70). -/
def word (opc : BitVec 4) (ch : Channel) (data : Byte) : Word := opc ++ (0#2 : BitVec 2) ++ ch ++ data

/-- The encoder (R72, R75). -/
def encode : Instr → Word
  | .nop => word 0x0 0 0
  | .record d => word 0x1 0 d
  | .keysample => word 0x2 0 0
  | .dbread => word 0x3 0 0
  | .updedge => word 0x4 0 0
  | .ledwrite d => word 0x5 0 d
  | .adcread c => word 0x6 c 0
  | .xfer d => word 0x7 0 d

/-- The `match` column of R72: an instruction's word with its operand bits cleared. -/
def rowMatch : Instr → Word
  | .nop => 0x0000
  | .record _ => 0x1000
  | .keysample => 0x2000
  | .dbread => 0x3000
  | .updedge => 0x4000
  | .ledwrite _ => 0x5000
  | .adcread _ => 0x6000
  | .xfer _ => 0x7000

/-- The `mask` column of R72. -/
def rowMask : Instr → Word
  | .nop => 0xFFFF
  | .record _ => 0xFF00
  | .keysample => 0xFFFF
  | .dbread => 0xFFFF
  | .updedge => 0xFFFF
  | .ledwrite _ => 0xFF00
  | .adcread _ => 0xFCFF
  | .xfer _ => 0xFF00

/-- The eight rows of R72 as (match, mask) pairs, in the table's order. -/
def opcodeRows : List (Word × Word) :=
  [(0x0000, 0xFFFF), (0x1000, 0xFF00), (0x2000, 0xFFFF), (0x3000, 0xFFFF),
   (0x4000, 0xFFFF), (0x5000, 0xFF00), (0x6000, 0xFCFF), (0x7000, 0xFF00)]

/-- The rows a word matches: `(w & mask) == match` (R72). -/
def matchingRows (w : Word) : List (Word × Word) := opcodeRows.filter fun r => decide (w &&& r.2 = r.1)

/-- A word is legal when it matches exactly one row (R72). -/
def legalWord (w : Word) : Bool := decide ((matchingRows w).length = 1)

/-- The word the port sees for an instruction whose table bits are w: a command is one 16-bit word, accepted whole
(R55, R70), so there is no byte order; bits above nbits are 0 (log 18). -/
def tableWord (nbits w : Nat) : Word := BitVec.ofNat 16 (w % 2 ^ nbits)

/-- What the decoder reads from an instruction whose bits are w. -/
def decodeTableWord (nbits w : Nat) : Option Instr :=
  match decode (tableWord nbits w) with
  | .ok i => some i
  | .error _ => none

end Sys2Proof
end

