-- ==== Sys2Proof/Config.lean ====
section
/-! DEFINITION. What is fixed for one machine (00_scope.md R7), what the environment drives (10_state.md R20), and the
free values. -/

namespace Sys2Proof

/-- The levels of every input port of R20 in one cycle; true is the level 1. Except for the port contract of `rstN`
they are draws under no law (R100, R218, 93 U8). -/
structure Inputs where
  /-- `rst_n`: asynchronous active-low reset -/
  rstN : Bool
  /-- `cmd_valid_i` -/
  cmdValid : Bool
  /-- `cmd_word_i` -/
  cmdWord : Word
  /-- `rd_addr_i` -/
  rdAddr : HostAddr
  /-- `sample_tick_i` -/
  sampleTick : Bool
  /-- `rotate_i` -/
  rotate : Bool
  /-- `data_i` -/
  dataI : Bool
  /-- `sdi_i` -/
  sdi : Bool
  /-- `ext_req_i` -/
  extReq : Bool
  /-- `ext_sck_i` -/
  extSck : Bool
  /-- `ext_data_i` -/
  extData : Bool
deriving DecidableEq, Repr, Inhabited

/-- `rst_n = 1` and every other input at 0. -/
def Inputs.quiet : Inputs where
  rstN := true
  cmdValid := false
  cmdWord := 0
  rdAddr := 0
  sampleTick := false
  rotate := false
  dataI := false
  sdi := false
  extReq := false
  extSck := false
  extData := false

/-- A table of eight positions: `P[i]` is the position that bit i comes from (R141). -/
abbrev Perm := Vector BitPos 8

/-- The implementation parameters of R7. `N_CH = 4` and `ADC_REQ1 = 0x01` are fixed and so are no fields.
No operation writes them: they are fixed for the life of the block (R240, R243). -/
structure Config where
  /-- `N_WIN`, legal 1..128 -/
  nWin : Nat
  /-- `REORDER` -/
  reorder : Bool
  /-- `S_R`, in rising order (log 30) -/
  setR : List BitPos
  /-- `PERM_R` -/
  permR : Perm
  /-- `S_W`, in rising order (log 30) -/
  setW : List BitPos
  /-- `PERM_W` -/
  permW : Perm
  /-- `ADC_GUARDED` -/
  adcGuarded : Bool
  /-- `ADC_REQ2(0..3)` -/
  adcReq2 : Vector Byte 4
  /-- `ADC_REQ3` -/
  adcReq3 : Byte
  /-- `F_CLK`; no rule depends on it (D38). R7 says "frequency of `clk`" and gives no number type and no unit: that it is
  a rational number of hertz is a DESIGN CHOICE, safe (log 33). -/
  fClk : Rat
deriving DecidableEq, Repr

/-- `ADC_REQ1`: "Byte 1 wakes the chip" (R170). -/
def Config.adcReq1 : Byte := 0x01

/-- The table that moves no position. -/
def Perm.identity : Perm := #v[0, 1, 2, 3, 4, 5, 6, 7]

/-- The parameter values the spec's vectors use (95 section 0, D39): N_WIN = 10, REORDER = false, ADC_GUARDED = true,
the default request bytes (PRESUMED by the spec itself, G1; log 9). The two tables and F_CLK, which the spec leaves
OPEN, are the model's: DESIGN CHOICE, unsafe (log 8). No statement rests on any of these values. -/
def Config.reference : Config where
  nWin := 10
  reorder := false
  setR := [0, 1, 2, 3]
  permR := Perm.identity
  setW := [0, 1, 2, 3]
  permW := Perm.identity
  adcGuarded := true
  adcReq2 := #v[0x80, 0x90, 0xA0, 0xB0]
  adcReq3 := 0x00
  fClk := 1

/-- Seconds taken by a number of edges: "edges divided by `F_CLK`" (R260). That `F_CLK` and the result are rational
numbers, of hertz and of seconds, is a DESIGN CHOICE (log 33). -/
def Config.seconds (c : Config) (edges : Nat) : Rat := (edges : Rat) / c.fClk

/-- The free value `draw_8()` of the n-th edge: the sample a preempting KEYSAMPLE records (R196, 93 U7; log 5).
Nothing constrains it. -/
opaque Config.draw8 : Nat → Byte

/-- The free value `draw_11()` of the n-th edge: the value of a corrupted conversion (R171, R196, 93 U7; log 5).
Nothing constrains it. -/
opaque Config.draw11 : Nat → AdcValue

/-- The free input levels of the cycle before the n-th edge, where the script of the environment lists none
(R100, 93 U8; log 2). Nothing constrains them. -/
opaque Config.envLevels : Nat → Inputs

end Sys2Proof
end

