-- ==== Sys2Proof/Machine/State.lean ====
section
/-! DEFINITION. The state of MFP-EPC (10_state.md R20-R29), the stops, the reset state (70_reset_and_hazards.md R240),
and the named updates of single registers. -/

namespace Sys2Proof.Machine

/-- `OWNER`: who holds the sequencer and the lines (R25). Codes 5-7 are never produced, so they have no constructor
(log 12). -/
inductive Owner where
  | none | init | tick | host | ext
deriving DecidableEq, Repr

/-- The 3-bit code of `OWNER` (R25). -/
def Owner.code : Owner → BitVec 3
  | .none => 0
  | .init => 1
  | .tick => 2
  | .host => 3
  | .ext => 4

/-- `OWNER ∈ {INIT, TICK, HOST}`: an operation is in progress (R32 BUSY, R104). -/
def Owner.busy : Owner → Bool
  | .none => false
  | .init => true
  | .tick => true
  | .host => true
  | .ext => false

/-- Debounce-engine state (R23). -/
structure Debounce where
  /-- `RING[0..N_WIN-1]`; its length is `N_WIN` in every state that a run reaches (R24) -/
  ring : List Byte
  /-- `POS` -/
  pos : BitVec 7
  /-- `CUR` -/
  cur : Byte
  /-- `PREV` -/
  prev : Byte
  /-- `DOWN` -/
  down : Byte
  /-- `UP` -/
  up : Byte
deriving DecidableEq, Repr

/-- Sequencer state (R25). -/
structure Sequencer where
  /-- `OWNER` -/
  owner : Owner
  /-- `OP`: command word of the operation in progress -/
  op : Word
  /-- `STEP`: index of the next micro-step of `OP` -/
  step : BitVec 7
  /-- `ACC`: shift accumulator for received bits -/
  acc : Byte
  /-- `XOUT`: LED byte being shifted out -/
  xout : Byte
  /-- `R2`: the converter's response to request byte 2 -/
  r2 : Byte
  /-- `INIT_CNT`: power-up conversions finished, 0..4 -/
  initCnt : BitVec 3
deriving DecidableEq, Repr

/-- Intake and status state (R26). -/
structure Intake where
  /-- `CMD_SLOT` -/
  cmdSlot : Word
  /-- `CMD_FULL` -/
  cmdFull : Bool
  /-- `TICK_PEND` -/
  tickPend : Bool
  /-- `ERR` -/
  err : Bool
  /-- `EXT_GNT` -/
  extGnt : Bool
deriving DecidableEq, Repr

/-- Preemption state (R27). It exists only when `ADC_GUARDED = false`: `State.suspended` and `State.corrupt` are the
only readers that act on it, and they read 0 when `ADC_GUARDED = true` (log 14). -/
structure Suspended where
  /-- `SUSP_VALID` -/
  valid : Bool
  /-- `SUSP_OWNER` -/
  owner : Owner
  /-- `SUSP_OP` -/
  op : Word
  /-- `SUSP_STEP` -/
  step : BitVec 7
  /-- `SUSP_ACC` -/
  acc : Byte
  /-- `SUSP_R2` -/
  r2 : Byte
  /-- `ADC_CORRUPT` -/
  adcCorrupt : Bool
deriving DecidableEq, Repr

/-- Analog state (R28). -/
structure Analog where
  /-- `ADC_HIST[0..3]` -/
  hist : Vector AdcValue 4
  /-- `RESULT` -/
  result : Word
deriving DecidableEq, Repr

/-- Pin registers (R29). -/
structure PinRegs where
  /-- `SCK_R` -/
  sck : Bool
  /-- `DATA_R` -/
  data : Bool
  /-- `OE_R` -/
  oe : Bool
  /-- `KLD_R` -/
  kld : Bool
  /-- `LLAT_R` -/
  llat : Bool
  /-- `CS_R` -/
  cs : Bool
deriving DecidableEq, Repr

/-- The environment, the model's own state (logs 2, 3, 5). -/
structure Env where
  /-- the levels of the input ports in the present cycle, which the next edge samples -/
  pins : Inputs
  /-- the levels of the cycles after it, as many as are listed -/
  script : List Inputs
  /-- how many edges have been stepped: the argument of the free values -/
  edges : Nat
deriving DecidableEq, Repr

/-- The whole machine. -/
structure State where
  /-- build parameters (R7), constant -/
  cfg : Config
  /-- R23 -/
  deb : Debounce
  /-- R25 -/
  seq : Sequencer
  /-- R26 -/
  intake : Intake
  /-- R27 -/
  susp : Suspended
  /-- R28 -/
  analog : Analog
  /-- R29 -/
  pinr : PinRegs
  /-- the model's own -/
  env : Env
deriving DecidableEq, Repr

/-- The stops. Both stand for states that no run reaches: the block itself has no fault (R211; log 11). -/
inductive Fault where
  /-- Raised by a meaning when `STEP` is no micro-step of the operation (`STEP ≥ S`, R105); safe. -/
  | strayStep
  /-- Raised by the sequencer when an operation is in progress and `OP` is no command (R72); safe. -/
  | strayOp
deriving DecidableEq, Repr

/-- The refusals. -/
inductive Refusal where
  /-- Raised by an arm of `exec` whose instruction has no meaning yet; no arm does; safe. -/
  | notModelled (mnemonic : String)
  /-- Raised by a step of a machine whose configuration is not legal: "A configuration that breaks this is refused"
  (R148, 93 U1, U3, U4; log 10); safe. -/
  | illegalConfig
deriving DecidableEq, Repr

/-! ### Reset -/

/-- Reset values of R23. -/
def Debounce.reset (c : Config) : Debounce where
  ring := List.replicate c.nWin 0
  pos := 0
  cur := 0
  prev := 0
  down := 0
  up := 0

/-- Reset values of R25. -/
def Sequencer.reset : Sequencer where
  owner := .none
  op := 0
  step := 0
  acc := 0
  xout := 0
  r2 := 0
  initCnt := 0

/-- Reset values of R26. -/
def Intake.reset : Intake where
  cmdSlot := 0
  cmdFull := false
  tickPend := false
  err := false
  extGnt := false

/-- Reset values of R27. -/
def Suspended.reset : Suspended where
  valid := false
  owner := .none
  op := 0
  step := 0
  acc := 0
  r2 := 0
  adcCorrupt := false

/-- Reset values of R28. -/
def Analog.reset : Analog where
  hist := #v[0, 0, 0, 0]
  result := 0

/-- Reset values of R29. -/
def PinRegs.reset : PinRegs where
  sck := false
  data := false
  oe := true
  kld := true
  llat := false
  cs := true

/-- The state that reset gives a block built with the parameters c, in the environment e: "No register is left
unspecified at reset" (R240). Reset changes neither the parameters nor the environment. -/
def State.resetWith (c : Config) (e : Env) : State where
  cfg := c
  deb := .reset c
  seq := .reset
  intake := .reset
  susp := .reset
  analog := .reset
  pinr := .reset
  env := e

/-- Quiet levels in the first cycle and nothing said of the later ones: DESIGN CHOICE, unsafe (log 3). No statement
rests on it. -/
def Env.quiet : Env where
  pins := .quiet
  script := []
  edges := 0

/-- The machine right after reset (R240), built with the reference parameters (log 8). -/
def State.reset : State := .resetWith .reference .quiet

namespace State

/-! ### Reads that depend on the build -/

/-- `SUSP_VALID`, which reads as 0 when `ADC_GUARDED = true` (R27). -/
def suspended (s : State) : Bool := !s.cfg.adcGuarded && s.susp.valid

/-- `ADC_CORRUPT`, which reads as 0 when `ADC_GUARDED = true` (R27). -/
def corrupt (s : State) : Bool := !s.cfg.adcGuarded && s.susp.adcCorrupt

/-! ### Writes of one register -/

/-- `OWNER <- v` -/
def setOwner (s : State) (v : Owner) : State := { s with seq := { s.seq with owner := v } }
/-- `OP <- v` -/
def setOp (s : State) (v : Word) : State := { s with seq := { s.seq with op := v } }
/-- `STEP <- v` -/
def setStep (s : State) (v : BitVec 7) : State := { s with seq := { s.seq with step := v } }
/-- `ACC <- v` -/
def setAcc (s : State) (v : Byte) : State := { s with seq := { s.seq with acc := v } }
/-- `XOUT <- v` -/
def setXout (s : State) (v : Byte) : State := { s with seq := { s.seq with xout := v } }
/-- `R2 <- v` -/
def setR2 (s : State) (v : Byte) : State := { s with seq := { s.seq with r2 := v } }
/-- `INIT_CNT <- v` -/
def setInitCnt (s : State) (v : BitVec 3) : State := { s with seq := { s.seq with initCnt := v } }
/-- `CMD_SLOT <- v` -/
def setCmdSlot (s : State) (v : Word) : State := { s with intake := { s.intake with cmdSlot := v } }
/-- `CMD_FULL <- v` -/
def setCmdFull (s : State) (v : Bool) : State := { s with intake := { s.intake with cmdFull := v } }
/-- `TICK_PEND <- v` -/
def setTickPend (s : State) (v : Bool) : State := { s with intake := { s.intake with tickPend := v } }
/-- `ERR <- v` -/
def setErr (s : State) (v : Bool) : State := { s with intake := { s.intake with err := v } }
/-- `EXT_GNT <- v` -/
def setExtGnt (s : State) (v : Bool) : State := { s with intake := { s.intake with extGnt := v } }
/-- `SCK_R <- v` -/
def setSck (s : State) (v : Bool) : State := { s with pinr := { s.pinr with sck := v } }
/-- `DATA_R <- v` -/
def setData (s : State) (v : Bool) : State := { s with pinr := { s.pinr with data := v } }
/-- `OE_R <- v` -/
def setOe (s : State) (v : Bool) : State := { s with pinr := { s.pinr with oe := v } }
/-- `KLD_R <- v` -/
def setKld (s : State) (v : Bool) : State := { s with pinr := { s.pinr with kld := v } }
/-- `LLAT_R <- v` -/
def setLlat (s : State) (v : Bool) : State := { s with pinr := { s.pinr with llat := v } }
/-- `CS_R <- v` -/
def setCs (s : State) (v : Bool) : State := { s with pinr := { s.pinr with cs := v } }
/-- `RESULT <- v` -/
def setResult (s : State) (v : Word) : State := { s with analog := { s.analog with result := v } }
/-- `ADC_HIST <- v` -/
def setHist (s : State) (v : Vector AdcValue 4) : State := { s with analog := { s.analog with hist := v } }
/-- `SUSP_VALID <- v` -/
def setSuspValid (s : State) (v : Bool) : State := { s with susp := { s.susp with valid := v } }
/-- `ADC_CORRUPT <- v` -/
def setCorrupt (s : State) (v : Bool) : State := { s with susp := { s.susp with adcCorrupt := v } }
/-- all debounce registers -/
def setDeb (s : State) (v : Debounce) : State := { s with deb := v }
/-- all preemption registers -/
def setSusp (s : State) (v : Suspended) : State := { s with susp := v }
/-- the environment -/
def setEnv (s : State) (v : Env) : State := { s with env := v }

end State

end Sys2Proof.Machine
end

