-- ==== Sys2Proof/Machine/Operands.lean ====
section
/-! DEFINITION. What the micro-steps read: bits of a byte in transmission order (20_memory.md R52), permutations and their
gates (42_shift_protocol.md R141, R142), the converter's request bytes and result (43_adc.md R170-R172), the commands
INIT and TICK start (30_encoding.md R74), and the step counts (40_execution.md R105). -/

namespace Sys2Proof.Machine

/-- The bit of b that is j-th on the line, most significant first: `b[7-j]` (R52). -/
def msbBit (b : Byte) (j : Nat) : Bool := b.getLsbD (7 - j)

/-- `{acc[6:0], bit}`: a received bit enters at the low end (R140, R143). -/
def shiftIn (acc : Byte) (bit : Bool) : Byte := acc.extractLsb' 0 7 ++ BitVec.ofBool bit

/-- `perm(P, v)[i] := v[P(i)]` (R141). -/
def permute (P : Perm) (v : Byte) : Byte :=
  BitVec.ofBoolListLE
    [v.getLsbD P[0], v.getLsbD P[1], v.getLsbD P[2], v.getLsbD P[3],
     v.getLsbD P[4], v.getLsbD P[5], v.getLsbD P[6], v.getLsbD P[7]]

/-- `REORDER and not sample(rotate_i)`: gate_R and gate_W, each read at the step that uses it (R142). -/
def permGate (s : State) : Bool := s.cfg.reorder && !s.env.pins.rotate

/-- A byte after the read-side mapping, where its gate is open (R142, R143). -/
def readMapped (s : State) (v : Byte) : Byte := if permGate s then permute s.cfg.permR v else v

/-- A byte after the write-side mapping, where its gate is open (R142, R145). -/
def writeMapped (s : State) (v : Byte) : Byte := if permGate s then permute s.cfg.permW v else v

/-- `ADC_REQ2(ch)` (R170). -/
def adcReq2 (c : Config) (ch : Channel) : Byte := c.adcReq2.get ch.toFin

/-- `((R2 & 0x07) << 8) | ACC`, 11 bits (R171, R172, 90 C2). -/
def adcValue (r2 r3 : Byte) : AdcValue := ((r2 &&& 0x07).setWidth 11 <<< 8) ||| r3.setWidth 11

/-- `0x6000 | (INIT_CNT << 8)`: the word of the next power-up conversion (R74, R103). -/
def initWord (cnt : BitVec 3) : Word := 0x6000 ||| (cnt.setWidth 16 <<< 8)

/-- `0x2000`: the word a tick starts (R74, R103). -/
def tickWord : Word := 0x2000

/-- `S(w)`: the number of micro-steps of a command (R105). -/
def stepsOf : Instr → Nat
  | .nop => 1
  | .record _ => 1
  | .keysample => 20
  | .dbread => 1
  | .updedge => 1
  | .ledwrite _ => 27
  | .adcread _ => 75
  | .xfer _ => 24

end Sys2Proof.Machine
end

