-- ==== Sys2Proof/Machine/Ops.lean ====
section
/-! DEFINITION. The operations that several rules share: the fold and the record primitive (41_debounce.md R120, R121),
the byte exchange (42_shift_protocol.md R140), the bookkeeping around a micro-step (40_execution.md R104), taking the
exception (60_exceptions.md R210), entering and leaving a preempting KEYSAMPLE (44_bus_arbitration.md R195, R196), and
the events of an edge (40_execution.md R102, R103). -/

namespace Sys2Proof.Machine

open Host (Outcome)

/-! ### Debounce engine -/

/-- `AND(RING)` (R120). -/
def foldAnd (ring : List Byte) : Byte := ring.foldr (· &&& ·) 0xFF

/-- `RING[POS] <- raw; POS <- (POS + 1) mod N_WIN` (R121). -/
def recordSample (nWin : Nat) (raw : Byte) (d : Debounce) : Debounce :=
  { d with ring := d.ring.set d.pos.toNat raw, pos := BitVec.ofNat 7 ((d.pos.toNat + 1) % nWin) }

/-- `DOWN`, `UP`, `CUR` and `PREV` from the fold, `PREV` read before the edge (R124). -/
def updateEdges (d : Debounce) : Debounce :=
  let c := foldAnd d.ring
  { d with down := (d.prev ^^^ c) &&& c, up := (d.prev ^^^ c) &&& d.prev, cur := c, prev := c }

/-- `record(raw)` on the machine (R121). -/
def record (raw : Byte) (s : State) : State := s.setDeb (recordSample s.cfg.nWin raw s.deb)

/-! ### Byte exchange -/

/-- The received byte so far with the present level of `sdi_i`: `{ACC[6:0], sample(sdi_i)}` (R140). -/
def received (s : State) : Byte := shiftIn s.seq.acc s.env.pins.sdi

/-- Step t of `XCHG(b)`, t = 0..23 (R140). -/
def xchg (b : Byte) (t : Nat) (s : State) : State :=
  if t % 3 = 0 then
    if t = 0 then ((s.setData (msbBit b 0)).setOe true).setAcc 0 else s.setData (msbBit b (t / 3))
  else if t % 3 = 1 then s.setSck true
  else (s.setAcc (received s)).setSck false

/-! ### One micro-step and the bookkeeping after it -/

/-- `resume()`: the suspended ADCREAD goes on from the step it was suspended at (R196). It writes no pin register: "Its pin
registers are as the KEYSAMPLE left them", so `OE_R` stays 0 until the next exchange starts, and after an ADCREAD preempted
in its last exchange, where R254 says 1 (log 34). -/
def resume (s : State) : State :=
  (((((s.setOwner s.susp.owner).setOp s.susp.op).setStep s.susp.step).setAcc s.susp.acc).setR2 s.susp.r2).setSuspValid
    false

/-- `finish(OWNER, OP)`: the operation returns (R104, R215). Where a preempting KEYSAMPLE ends, `resume()` wins over
the clear of `OWNER` and `STEP` (R101). -/
def finish (s : State) : State :=
  let t := (s.setOwner .none).setStep 0
  match s.seq.owner with
  | .init => t.setInitCnt (s.seq.initCnt + 1)
  | .tick => if s.suspended then resume t else t
  | .host => t
  | .none => t
  | .ext => t

/-- After micro-step `STEP` of an operation of S steps: finish it, or `STEP <- STEP + 1` (R104). -/
def advance (S : Nat) (s : State) : State :=
  if s.seq.step.toNat + 1 = S then finish s else s.setStep (s.seq.step + 1)

/-- Micro-step `STEP` of an operation of S steps whose steps are given by body (R104, R106). A `STEP` that the operation
does not have is in no state that a run reaches, and stops (log 11). -/
def runMicro (S : Nat) (body : Nat → State → State) (s : State) : Outcome State Fault Refusal :=
  if s.seq.step.toNat < S then .next (advance S (body s.seq.step.toNat s)) else .fault .strayStep

/-! ### Exception, preemption -/

/-- `raise IllegalCommand`: `ERR <- 1`, nothing else; no trap is taken and the block goes on (R210). -/
def raiseIllegal (s : State) : State := s.setErr true

/-- The ADCREAD in progress is saved, marked corrupted, and the pending tick taken (R195). -/
def suspend (s : State) : State :=
  (s.setSusp
    { valid := true, owner := s.seq.owner, op := s.seq.op, step := s.seq.step, acc := s.seq.acc, r2 := s.seq.r2,
      adcCorrupt := true }).setTickPend false

/-- `preempt_condition()` (R195): always false when `ADC_GUARDED = true`. -/
def preemptCondition (s : State) : Bool :=
  !s.cfg.adcGuarded && decide (s.seq.owner = .host) && decide (opcOf s.seq.op = 0x6) && !s.suspended
    && s.intake.tickPend

/-! ### Arbitration -/

/-- What the arbiter can select (R103, R192). -/
inductive Selection where
  | nothing | ext | init | tick | host
deriving DecidableEq, Repr

/-- `arbitrate()`: fixed priority EXT, INIT, TICK, HOST, on the values before the edge (R192). -/
def arbitrate (s : State) : Selection :=
  if s.env.pins.extReq then .ext
  else if s.seq.initCnt.toNat < 4 then .init
  else if s.intake.tickPend then .tick
  else if s.intake.cmdFull then .host
  else .nothing

/-- The lines are granted to EXT (R193). -/
def grantExt (s : State) : State := (s.setOwner .ext).setExtGnt true

/-- EXT releases the lines (R193). -/
def releaseExt (s : State) : State := (s.setOwner .none).setExtGnt false

/-! ### The other events of an edge -/

/-- Command intake, on the state before the edge (R102, R30). -/
def takeCommand (before t : State) : State :=
  if before.env.pins.cmdValid && !before.intake.cmdFull then
    (t.setCmdSlot before.env.pins.cmdWord).setCmdFull true
  else t

/-- Tick capture: the set wins over the clear of a TICK start (R103, R101). -/
def captureTick (before t : State) : State := if before.env.pins.sampleTick then t.setTickPend true else t

/-- The environment drives the levels of the next cycle: the next ones of the script, or free ones (log 2). -/
def nextEnv (e : Env) : Env :=
  match e.script with
  | p :: ps => { pins := p, script := ps, edges := e.edges + 1 }
  | [] => { pins := Config.envLevels (e.edges + 1), script := [], edges := e.edges + 1 }

/-- The next cycle begins. -/
def nextCycle (s : State) : State := s.setEnv (nextEnv s.env)

/-- What every processed edge does beside the sequencer's part t: intake, tick capture, next cycle (R102, R103). -/
def afterEdge (before t : State) : State := nextCycle (captureTick before (takeCommand before t))

/-- An edge in a cycle with `rst_n = 0`: the state is the reset state (R101, R240; log 4). -/
def resetEdge (s : State) : State := nextCycle (.resetWith s.cfg s.env)

end Sys2Proof.Machine
end

