-- ==== Sys2Proof/Machine/Adc.lean ====
section
/-! DEFINITION. The analog converter read, ADCREAD (43_adc.md R170-R174). -/

namespace Sys2Proof.Machine

open Host (Outcome)

/-- The value of a conversion at its step 74: the formula on `R2` and the third response byte in `ACC`, or the free value
`draw_11()` of a corrupted conversion (R171, R196). -/
def conversionValue (s : State) : AdcValue :=
  if s.corrupt then Config.draw11 s.env.edges else adcValue s.seq.r2 s.seq.acc

/-- Step 74: converter deselected, history and, for the host's own ADCREAD, `RESULT` (R171, R173, R174). -/
def adcFinal (c : Channel) (s : State) : State :=
  let v := conversionValue s
  let t := (s.setCs true).setHist (s.analog.hist.set c.toNat v c.isLt)
  let t := if s.corrupt then t.setCorrupt false else t
  if s.seq.owner = .host then t.setResult (v.setWidth 16) else t

/-- Micro-step k of ADCREAD c, k = 0..74 (R171). -/
def adcreadStep (c : Channel) (k : Nat) (s : State) : State :=
  if k = 0 then s.setLlat false
  else if k = 1 then s.setCs false
  else if k < 26 then xchg Config.adcReq1 (k - 2) s
  else if k = 49 then (xchg (adcReq2 s.cfg c) 23 s).setR2 (received s)
  else if k < 49 then xchg (adcReq2 s.cfg c) (k - 26) s
  else if k < 74 then xchg s.cfg.adcReq3 (k - 50) s
  else adcFinal c s

/-- ADCREAD c (R171). -/
def execAdcread (c : Channel) (s : State) : Outcome State Fault Refusal := runMicro 75 (adcreadStep c) s

end Sys2Proof.Machine
end

