-- ==== Sys2Proof/Machine/Control.lean ====
section
/-! DEFINITION. NOP (40_execution.md R108). -/

namespace Sys2Proof.Machine

/-- NOP: "micro-step 0 does nothing. S = 1" (R108). -/
def execNop (s : State) : Host.Outcome State Fault Refusal := runMicro 1 (fun _ t => t) s

end Sys2Proof.Machine
end

