-- ==== Sys2Proof/Machine/Debounce.lean ====
section
/-! DEFINITION. The debounce and edge-detect family: RECORD, DBREAD, UPDEDGE (41_debounce.md R122-R124). -/

namespace Sys2Proof.Machine

open Host (Outcome)

/-- RECORD d: the sample as given, no inversion and no permutation (R122). -/
def execRecord (d : Byte) (s : State) : Outcome State Fault Refusal := runMicro 1 (fun _ t => record d t) s

/-- `RESULT <- zext_16(AND(RING))` (R123). -/
def dbreadStep (s : State) : State := s.setResult ((foldAnd s.deb.ring).setWidth 16)

/-- DBREAD (R123). -/
def execDbread (s : State) : Outcome State Fault Refusal := runMicro 1 (fun _ t => dbreadStep t) s

/-- The edge masks and both snapshots from the fold (R124). -/
def updedgeStep (s : State) : State := s.setDeb (updateEdges s.deb)

/-- UPDEDGE (R124). -/
def execUpdedge (s : State) : Outcome State Fault Refusal := runMicro 1 (fun _ t => updedgeStep t) s

end Sys2Proof.Machine
end

