-- ==== Sys2Proof/Machine/Shift.lean ====
section
/-! DEFINITION. The shift-register transactions: KEYSAMPLE, LEDWRITE, XFER (42_shift_protocol.md R143, R145, R147). Each
function gives micro-step k of its table. -/

namespace Sys2Proof.Machine

open Host (Outcome)

/-- The sample KEYSAMPLE records at step 19: `gate_R ? perm(PERM_R, ACC) : ACC` (R143); a preempting KEYSAMPLE records
the free value `draw_8()` instead (R196). -/
def keysampleRaw (s : State) : Byte := if s.suspended then Config.draw8 s.env.edges else readMapped s s.seq.acc

/-- Micro-step k of KEYSAMPLE, k = 0..19 (R143). The captured line is active low: each bit enters inverted. -/
def keysampleStep (k : Nat) (s : State) : State :=
  if k = 0 then (s.setOe false).setAcc 0
  else if k = 1 then s.setKld false
  else if k = 2 then s.setKld true
  else if k = 19 then record (keysampleRaw s) s
  else if k % 2 = 1 then s.setSck true
  else (s.setAcc (shiftIn s.seq.acc (!s.env.pins.dataI))).setSck false

/-- KEYSAMPLE (R143). -/
def execKeysample (s : State) : Outcome State Fault Refusal := runMicro 20 keysampleStep s

/-- Micro-step k of LEDWRITE d, k = 0..26 (R145). -/
def ledwriteStep (d : Byte) (k : Nat) (s : State) : State :=
  if k = 0 then ((s.setXout (writeMapped s d)).setOe true).setLlat false
  else if k = 25 then s.setLlat true
  else if k = 26 then s.setLlat false
  else if k % 3 = 1 then s.setData (msbBit s.seq.xout (k / 3))
  else if k % 3 = 2 then s.setSck false
  else s.setSck true

/-- LEDWRITE d (R145). -/
def execLedwrite (d : Byte) (s : State) : Outcome State Fault Refusal := runMicro 27 (ledwriteStep d) s

/-- Micro-step k of XFER d, k = 0..23: `XCHG(d)`, and at step 23 also the received byte into `RESULT` (R147). -/
def xferStep (d : Byte) (k : Nat) (s : State) : State :=
  if k = 23 then (xchg d k s).setResult ((received s).setWidth 16) else xchg d k s

/-- XFER d (R147). -/
def execXfer (d : Byte) (s : State) : Outcome State Fault Refusal := runMicro 24 (xferStep d) s

end Sys2Proof.Machine
end

