-- ==== Sys2Proof/Machine/Dispatch.lean ====
section
/-! DEFINITION. Dispatch (40_execution.md R105): the micro-step `STEP` of a command. -/

namespace Sys2Proof.Machine

def exec (i : Instr) (s : State) : Host.Outcome State Fault Refusal :=
  match i with
  | .nop => Sys2Proof.Machine.execNop s
  | .record d => Sys2Proof.Machine.execRecord d s
  | .keysample => Sys2Proof.Machine.execKeysample s
  | .dbread => Sys2Proof.Machine.execDbread s
  | .updedge => Sys2Proof.Machine.execUpdedge s
  | .ledwrite d => Sys2Proof.Machine.execLedwrite d s
  | .adcread c => Sys2Proof.Machine.execAdcread c s
  | .xfer d => Sys2Proof.Machine.execXfer d s

end Sys2Proof.Machine
end

