-- ==== Sys2Proof/WellFormed.lean ====
section
/-! DEFINITION. The checks that refuse an ill-formed configuration (00_scope.md R7, 42_shift_protocol.md R148,
93 U1, U3, U4) and an ill-formed source line (30_encoding.md R75, 93 U17). -/

namespace Sys2Proof

/-- `1 ≤ N_WIN ≤ 128` (R7, D7). -/
def Config.windowOk (c : Config) : Bool := decide (1 ≤ c.nWin) && decide (c.nWin ≤ 128)

/-- The set of a permutation has four positions, listed in rising order (R7; log 30). -/
def Perm.setOk (S : List BitPos) : Bool := decide (S.length = 4) && decide (S.Pairwise (· < ·))

/-- The table loses no position and doubles none (R148). -/
def Perm.bijective (P : Perm) : Bool := decide P.toList.Nodup

/-- The table moves no position outside its set (R148). -/
def Perm.movesOnly (S : List BitPos) (P : Perm) : Bool :=
  bitPositions.all fun i => S.contains i || decide (P[i] = i)

/-- Legality of one permutation parameter (R148). -/
def Perm.legal (S : List BitPos) (P : Perm) : Bool := Perm.setOk S && P.bijective && P.movesOnly S

/-- A configuration that the block can be built with (R7, R148). `F_CLK` is a frequency, so it is
taken to be positive (DESIGN CHOICE, log 10). -/
def Config.legal (c : Config) : Bool :=
  c.windowOk && Perm.legal c.setR c.permR && Perm.legal c.setW c.permW && decide (0 < c.fClk.num)

/-- The number of values the operand of a mnemonic can take; none where the row has no operand (R72, R75). -/
def Mnemonic.operandRange : Mnemonic → Option Nat
  | .nop => none
  | .record => some 256
  | .keysample => none
  | .dbread => none
  | .updedge => none
  | .ledwrite => some 256
  | .adcread => some 4
  | .xfer => some 256

/-- A source line is well-formed when it has an operand exactly where its row has one, in range: "An operand out of
range is an assembly error" (R75). -/
def AsmLine.wf : AsmLine → Bool
  | .command m operand =>
    match m.operandRange, operand with
    | none, none => true
    | some bound, some n => decide (n < bound)
    | none, some _ => false
    | some _, none => false
  | .tick => true
  | .wait => true

end Sys2Proof
end

