-- ==== Sys2Proof/Machine/Sequencer.lean ====
section
/-! DEFINITION. The sequencer and the clock edge (40_execution.md R101-R104, 44_bus_arbitration.md R192-R196), and how a
command is placed so that the next edge starts it. -/

namespace Sys2Proof.Machine

open Host (Outcome)

/-- Act on the next state, where there is one. -/
def mapNext (f : State → State) : Outcome State Fault Refusal → Outcome State Fault Refusal
  | .next t => .next (f t)
  | .fault r => .fault r
  | .refused r => .refused r

/-- `OP <- w` when the started operation has more than one step: a one-step operation finishes at its start edge and
leaves `OP` as it was (R103). -/
def keepWord (i : Instr) (w : Word) (t : State) : State := if stepsOf i = 1 then t else t.setOp w

/-- `start(src, w)`: micro-step 0 of the command, or IllegalCommand (R103). -/
def start (src : Owner) (w : Word) (s : State) : Outcome State Fault Refusal :=
  match decode w with
  | .ok i => mapNext (keepWord i w) (exec i ((s.setOwner src).setStep 0))
  | .error _ => .next (raiseIllegal s)

/-- `preempt()`: save the ADCREAD and start a KEYSAMPLE for the pending tick (R195). -/
def preempt (s : State) : Outcome State Fault Refusal := start .tick tickWord (suspend s)

/-- An idle edge: start what the arbiter selects (R103, R192). -/
def startSelected (s : State) : Outcome State Fault Refusal :=
  match arbitrate s with
  | .nothing => .next s
  | .ext => .next (grantExt s)
  | .init => start .init (initWord s.seq.initCnt) s
  | .tick => start .tick tickWord (s.setTickPend false)
  | .host => start .host s.intake.cmdSlot (s.setCmdFull false)

/-- An edge of the operation in progress: micro-step `STEP` of `OP` (R104). An `OP` that is no command is in no state
that a run reaches, and stops (log 11). -/
def stepInProgress (s : State) : Outcome State Fault Refusal :=
  match decode s.seq.op with
  | .ok i => exec i s
  | .error _ => .fault .strayOp

/-- The sequencer's part of an edge (R103, R104, R193). -/
def sequencerEdge (s : State) : Outcome State Fault Refusal :=
  match s.seq.owner with
  | .none => startSelected s
  | .ext => .next (if s.env.pins.extReq then s else releaseExt s)
  | .init => stepInProgress s
  | .tick => stepInProgress s
  | .host => if preemptCondition s then preempt s else stepInProgress s

/-- One rising edge of `clk` (R101). A block whose configuration is not legal is refused (R148; log 10). -/
def clockEdge (s : State) : Outcome State Fault Refusal :=
  if s.cfg.legal then
    if s.env.pins.rstN then mapNext (afterEdge s) (sequencerEdge s) else .next (resetEdge s)
  else .refused .illegalConfig

/-- The host's word w in the command slot of an idle block whose INIT is done, with nothing of higher priority ready:
the next edge starts it (R103, R192; log 17). -/
def placeCommand (w : Word) (s : State) : State :=
  let t := ((s.setCmdSlot w).setCmdFull true).setTickPend false
  let t := ((t.setExtGnt false).setOwner .none).setInitCnt 4
  t.setEnv { s.env with pins := { s.env.pins with rstN := true, extReq := false } }

end Sys2Proof.Machine
end

