-- ==== Sys2Proof/Machine/Assembler.lean ====
section
/-! DEFINITION. The assembly text of command sequences (30_encoding.md R75, R76): one command per line, a number in
decimal, hexadecimal or binary, a comment after `;`, and the pseudo-lines TICK and WAIT. What R75 leaves open of the text
(blanks, letter case, lines without a command) is fixed in log 20. -/

namespace Sys2Proof.Machine

/-- The command a line stands for; none for a pseudo-line and for a line that is not well-formed: an operand out of range
"is not encoded" (R75, R76). -/
def assembleLine (l : AsmLine) : Option Instr :=
  if l.wf then
    match l with
    | .command .nop _ => some .nop
    | .command .record v => v.map fun n => .record (BitVec.ofNat 8 n)
    | .command .keysample _ => some .keysample
    | .command .dbread _ => some .dbread
    | .command .updedge _ => some .updedge
    | .command .ledwrite v => v.map fun n => .ledwrite (BitVec.ofNat 8 n)
    | .command .adcread v => v.map fun n => .adcread (BitVec.ofNat 2 n)
    | .command .xfer v => v.map fun n => .xfer (BitVec.ofNat 8 n)
    | .tick => none
    | .wait => none
  else none

/-- The value of a hexadecimal digit. -/
def digitValue (c : Char) : Option Nat :=
  if '0' ≤ c ∧ c ≤ '9' then some (c.toNat - '0'.toNat)
  else if 'a' ≤ c ∧ c ≤ 'f' then some (c.toNat - 'a'.toNat + 10)
  else if 'A' ≤ c ∧ c ≤ 'F' then some (c.toNat - 'A'.toNat + 10)
  else none

/-- Digits in a base, most significant first, onto the value so far. -/
def digitsFrom (base : Nat) : Nat → List Char → Option Nat
  | v, [] => some v
  | v, c :: cs =>
    match digitValue c with
    | some d => if d < base then digitsFrom base (v * base + d) cs else none
    | none => none

/-- A number of R75: `0x…`, `0b…` or decimal; at least one digit. -/
def parseNumber : List Char → Option Nat
  | [] => none
  | '0' :: 'x' :: c :: cs => digitsFrom 16 0 (c :: cs)
  | '0' :: 'b' :: c :: cs => digitsFrom 2 0 (c :: cs)
  | c :: cs => digitsFrom 10 0 (c :: cs)

/-- The mnemonics of R72, letter for letter. -/
def parseMnemonic (cs : List Char) : Option Mnemonic :=
  if cs = ['N', 'O', 'P'] then some .nop
  else if cs = ['R', 'E', 'C', 'O', 'R', 'D'] then some .record
  else if cs = ['K', 'E', 'Y', 'S', 'A', 'M', 'P', 'L', 'E'] then some .keysample
  else if cs = ['D', 'B', 'R', 'E', 'A', 'D'] then some .dbread
  else if cs = ['U', 'P', 'D', 'E', 'D', 'G', 'E'] then some .updedge
  else if cs = ['L', 'E', 'D', 'W', 'R', 'I', 'T', 'E'] then some .ledwrite
  else if cs = ['A', 'D', 'C', 'R', 'E', 'A', 'D'] then some .adcread
  else if cs = ['X', 'F', 'E', 'R'] then some .xfer
  else none

/-- "A `;` starts a comment" (R75). -/
def stripComment : List Char → List Char
  | [] => []
  | c :: cs => if c = ';' then [] else c :: stripComment cs

/-- The words of a text, cut at spaces and tabs; cur holds the word being read, last letter first. -/
def splitWords (cur : List Char) : List Char → List (List Char)
  | [] => if cur.isEmpty then [] else [cur.reverse]
  | c :: cs =>
    if c = ' ' ∨ c = '\t' then
      if cur.isEmpty then splitWords [] cs else cur.reverse :: splitWords [] cs
    else splitWords (c :: cur) cs

/-- What one line of text says. -/
inductive ParsedLine where
  /-- Nothing but blanks and a comment. R75 gives no such line; that it is accepted and encodes to no word is a
  DESIGN CHOICE, safe (log 20). -/
  | blank
  | line (l : AsmLine)
  /-- no line of R75 or R76 -/
  | error
deriving DecidableEq, Repr

/-- One line of text, without its line break (R75, R76); a line of blanks and a comment only is accepted as blank
(DESIGN CHOICE, log 20). -/
def parseLine (text : List Char) : ParsedLine :=
  match splitWords [] (stripComment text) with
  | [] => .blank
  | [w] =>
    if w = ['T', 'I', 'C', 'K'] then .line .tick
    else if w = ['W', 'A', 'I', 'T'] then .line .wait
    else
      match parseMnemonic w with
      | some m => .line (.command m none)
      | none => .error
  | [w, v] =>
    match parseMnemonic w, parseNumber v with
    | some m, some n => .line (.command m (some n))
    | _, _ => .error
  | _ => .error

/-- The word that one line of text encodes to (R75); none for a pseudo-line, a blank line and an assembly error. -/
def assembleText (text : List Char) : Option Word :=
  match parseLine text with
  | .line l => (assembleLine l).map encode
  | .blank => none
  | .error => none

/-- A cycle of a line, p being the levels the environment drives in that cycle: a command is offered (R30), `TICK` is "one
cycle with `sample_tick_i = 1`", `WAIT` reads STATUS (R76). Every port the line does not name keeps its level of p: R76
fixes none of them, and they are draws (R100, R218; log 21). None for a line that is not well-formed (R75). -/
def lineLevels (l : AsmLine) (p : Inputs) : Option Inputs :=
  match l with
  | .command _ _ => (assembleLine l).map fun i => { p with cmdValid := true, cmdWord := encode i }
  | .tick => some { p with sampleTick := true }
  | .wait => some { p with rdAddr := 0x00 }

end Sys2Proof.Machine
end

