-- ==== Sys2Proof/Machine/Flags.lean ====
section
/-! DEFINITION. The status flags (10_state.md R32, R34): every one is computed from the state; there are no arithmetic
condition codes. -/

namespace Sys2Proof.Machine

/-- STATUS[0] BUSY: `OWNER ∈ {INIT, TICK, HOST}` (R32). -/
def busyFlag (s : State) : Bool := s.seq.owner.busy

/-- STATUS[5] INIT: `INIT_CNT < 4` (R32). -/
def initFlag (s : State) : Bool := decide (s.seq.initCnt.toNat < 4)

/-- The STATUS word (R32): BUSY, CMD_FULL, TICK_PEND, EXT_GNT, ERR, INIT, OWNER, SUSP, from bit 0 up. -/
def statusWord (s : State) : Word :=
  (0#6 : BitVec 6) ++ BitVec.ofBool s.suspended ++ s.seq.owner.code ++ BitVec.ofBool (initFlag s)
    ++ BitVec.ofBool s.intake.err ++ BitVec.ofBool s.intake.extGnt ++ BitVec.ofBool s.intake.tickPend
    ++ BitVec.ofBool s.intake.cmdFull ++ BitVec.ofBool (busyFlag s)

/-- The CONFIG word: [7:0] `N_WIN`, [8] `REORDER`, [9] `ADC_GUARDED` (R31). -/
def configWord (c : Config) : Word :=
  (0#6 : BitVec 6) ++ BitVec.ofBool c.adcGuarded ++ BitVec.ofBool c.reorder ++ BitVec.ofNat 8 c.nWin

/-- What a host that polls looks for in the STATUS word it has read: `CMD_FULL = 0`, `OWNER ≠ HOST` and `SUSP = 0`
(R107). -/
def statusDone (status : Word) : Bool :=
  !status.getLsbD 1 && !decide (status.extractLsb' 6 3 = Owner.host.code) && !status.getLsbD 9

end Sys2Proof.Machine
end

