-- ==== Sys2Proof/Machine/Ports.lean ====
section
/-! DEFINITION. The output ports (10_state.md R20, 44_bus_arbitration.md R190) and the host register map (10_state.md
R30-R33): combinational functions of the state and of the present input levels, with no side effect (R56). -/

namespace Sys2Proof.Machine

/-- The registers as they stand in the present cycle: the reset values while `rst_n = 0` (R101, R240; log 4). -/
def visible (s : State) : State := if s.env.pins.rstN then s else .resetWith s.cfg s.env

/-- The levels of the lines and control pins (R190). -/
structure Lines where
  /-- `sck_o` -/
  sck : Bool
  /-- `data_o` -/
  data : Bool
  /-- `data_oe_o` -/
  dataOe : Bool
  /-- `key_ld_n_o` -/
  keyLdN : Bool
  /-- `led_latch_o` -/
  ledLatch : Bool
  /-- `adc_cs_n_o` -/
  adcCsN : Bool
  /-- `ext_gnt_o` -/
  extGnt : Bool
deriving DecidableEq, Repr

/-- The multiplexer (R190), on the registers of the present cycle. -/
def muxLines (s : State) : Lines where
  sck := if s.intake.extGnt then s.env.pins.extSck else s.pinr.sck
  data := if s.intake.extGnt then s.env.pins.extData else s.pinr.data
  dataOe := if s.intake.extGnt then true else s.pinr.oe
  keyLdN := s.pinr.kld
  ledLatch := s.pinr.llat
  adcCsN := s.pinr.cs
  extGnt := s.intake.extGnt

/-- The PINS word (R33). -/
def pinsWord (s : State) : Word :=
  let l := muxLines s
  (0#6 : BitVec 6) ++ BitVec.ofBool s.env.pins.rotate ++ BitVec.ofBool l.extGnt ++ BitVec.ofBool l.adcCsN
    ++ BitVec.ofBool l.ledLatch ++ BitVec.ofBool l.keyLdN ++ BitVec.ofBool s.env.pins.sdi
    ++ BitVec.ofBool s.env.pins.dataI ++ BitVec.ofBool l.dataOe ++ BitVec.ofBool l.data ++ BitVec.ofBool l.sck

/-- The host register at an address, on the registers of the present cycle (R31): 0x80+i is `RING[i]` for i < N_WIN, and
every address not listed reads 0x0000. -/
def hostRegister (s : State) (addr : HostAddr) : Word :=
  if addr.toNat < 0x80 then
    match addr.toNat with
    | 0x00 => statusWord s
    | 0x01 => s.analog.result
    | 0x02 => s.deb.cur.setWidth 16
    | 0x03 => s.deb.prev.setWidth 16
    | 0x04 => s.deb.down.setWidth 16
    | 0x05 => s.deb.up.setWidth 16
    | 0x06 => s.deb.pos.setWidth 16
    | 0x07 => configWord s.cfg
    | 0x08 => (s.analog.hist.get 0).setWidth 16
    | 0x09 => (s.analog.hist.get 1).setWidth 16
    | 0x0A => (s.analog.hist.get 2).setWidth 16
    | 0x0B => (s.analog.hist.get 3).setWidth 16
    | 0x0C => pinsWord s
    | _ => 0
  else if addr.toNat - 0x80 < s.cfg.nWin then (s.deb.ring.getD (addr.toNat - 0x80) 0).setWidth 16
  else 0

/-- `MemRead(addr, 16)`: what the host reads in the present cycle (R50, R55). -/
def hostRead (s : State) (addr : HostAddr) : Word := hostRegister (visible s) addr

/-- The condition of R107 in the present cycle: what STATUS reads says that no host command is in the slot, in progress or
suspended. Like every read it shows the reset values while `rst_n = 0` (R240). -/
def hostDone (s : State) : Bool := statusDone (hostRead s 0x00)

/-- The output ports of R20. -/
structure Outputs where
  /-- `cmd_ready_o` -/
  cmdReady : Bool
  /-- `rd_data_o` -/
  rdData : Word
  /-- the lines and control pins -/
  lines : Lines
deriving DecidableEq, Repr

/-- The output ports in the present cycle; `cmd_ready_o = rst_n & ~CMD_FULL` (R30, 90 C9). -/
def outputs (s : State) : Outputs where
  cmdReady := s.env.pins.rstN && !s.intake.cmdFull
  rdData := hostRead s s.env.pins.rdAddr
  lines := muxLines (visible s)

/-- s in a cycle with the input levels p. -/
def withLevels (p : Inputs) (s : State) : State := s.setEnv { s.env with pins := p }

end Sys2Proof.Machine
end

