-- ==== Sys2Proof/Machine/Program.lean ====
section
/-! DEFINITION. A host that runs a program of lines on the block's ports (30_encoding.md R75, R76; 10_state.md R30;
95 section 0). The ports that a line does not name carry the environment's levels. -/

namespace Sys2Proof.Machine

/-- The present cycle of a host at the head of a list of lines: the state with the levels the host drives, and the lines
left after the cycle's edge. A command is offered until a cycle with `cmd_ready_o = 1`; TICK is one cycle; WAIT reads
STATUS in every cycle until R107's condition holds, and in the cycle where it holds the host goes on to the next line
(R30, R76, 95 section 0; log 21). None at a line that is not well-formed. -/
def programCycle : List AsmLine → State → Option (State × List AsmLine)
  | [], s => some (s, [])
  | l :: ls, s =>
    match lineLevels l s.env.pins with
    | none => none
    | some p =>
      let driven := withLevels p s
      match l with
      | .command _ _ => some (driven, if (outputs driven).cmdReady then ls else l :: ls)
      | .tick => some (driven, ls)
      | .wait => if statusDone (outputs driven).rdData then programCycle ls driven else some (driven, l :: ls)

/-- n cycles of a program: the state and the lines left; none at a line that is not well-formed and where the machine
stops. -/
def runProgram : Nat → List AsmLine → State → Option (State × List AsmLine)
  | 0, ls, s => some (s, ls)
  | n + 1, ls, s =>
    match programCycle ls s with
    | none => none
    | some (driven, rest) =>
      match step driven with
      | .next t => runProgram n rest t
      | .fault _ => none
      | .refused _ => none

end Sys2Proof.Machine
end

