-- ==== Sys2Proof/Safety.lean ====
section
/-! DEFINITION. What the claims are about: the invariant of the machine, runs of edges and of one operation's micro-steps,
traces of the pin registers, and histories of the debounce engine. -/

namespace Sys2Proof.Machine

open Host (Outcome)

/-! ### Runs -/

/-- n edges, stopping at the first stop. -/
def runEdges : Nat → State → Outcome State Fault Refusal
  | 0, s => .next s
  | n + 1, s =>
    match step s with
    | .next t => runEdges n t
    | .fault r => .fault r
    | .refused r => .refused r

/-- The micro-steps of one operation, one for each tuple of input levels, with no other event between them: what the
operation itself does (R104, R106). -/
def runOp (i : Instr) : List Inputs → State → Outcome State Fault Refusal
  | [], s => .next s
  | p :: ps, s =>
    match exec i (withLevels p s) with
    | .next t => runOp i ps t
    | .fault r => .fault r
    | .refused r => .refused r

/-- The input levels of the n-th of a list of cycles. -/
def levelsAt (ps : List Inputs) (n : Nat) : Inputs := ps.getD n .quiet

/-- The input levels of the coming edges, as far as the environment lists them; entry 0 is the next edge's. -/
def comingLevels (s : State) : List Inputs := s.env.pins :: s.env.script

/-! ### Traces of the pin registers -/

/-- The pin registers before the first and after each of the micro-steps of an operation. -/
def pinTrace (i : Instr) : List Inputs → State → List PinRegs
  | [], s => [s.pinr]
  | p :: ps, s =>
    s.pinr ::
      match exec i (withLevels p s) with
      | .next t => pinTrace i ps t
      | .fault _ => []
      | .refused _ => []

/-- The level of `DATA_R` at each rising edge of `SCK_R`, in order. -/
def dataAtRising : List PinRegs → List Bool
  | a :: b :: rest =>
    if !a.sck && b.sck then b.data :: dataAtRising (b :: rest) else dataAtRising (b :: rest)
  | [_] => []
  | [] => []

/-- The number of falling edges of `SCK_R`. -/
def fallingEdges : List PinRegs → Nat
  | a :: b :: rest => (if a.sck && !b.sck then 1 else 0) + fallingEdges (b :: rest)
  | [_] => 0
  | [] => 0

/-- The number of rising edges of `LLAT_R`. -/
def latchPulses : List PinRegs → Nat
  | a :: b :: rest => (if !a.llat && b.llat then 1 else 0) + latchPulses (b :: rest)
  | [_] => 0
  | [] => 0

/-! ### Histories of the debounce engine -/

/-- What can happen to the debounce registers: a sample is recorded, or the edge masks are updated. -/
inductive DebEvent where
  | sample (raw : Byte)
  | update
deriving DecidableEq, Repr

/-- The debounce registers after one event. -/
def debApply (nWin : Nat) (d : Debounce) : DebEvent → Debounce
  | .sample raw => recordSample nWin raw d
  | .update => updateEdges d

/-- The debounce registers after a history of events since reset. -/
def debAfter (c : Config) (events : List DebEvent) : Debounce := events.foldl (debApply c.nWin) (.reset c)

/-- The raw values of a history, in order. -/
def samplesOf (events : List DebEvent) : List Byte :=
  events.filterMap fun e =>
    match e with
    | .sample raw => some raw
    | .update => none

/-- The last n entries of a list. -/
def lastN (n : Nat) (vs : List Byte) : List Byte := vs.drop (vs.length - n)

/-- What micro-step 0 of a command does to the debounce registers (R122, R124). -/
def startedEvents : Instr → List DebEvent
  | .nop => []
  | .record d => [.sample d]
  | .keysample => []
  | .dbread => []
  | .updedge => [.update]
  | .ledwrite _ => []
  | .adcread _ => []
  | .xfer _ => []

/-- What the next edge does to the debounce registers: a KEYSAMPLE's step 19 and a host RECORD record a sample, a host
UPDEDGE updates the masks, nothing else writes them (R253). -/
def debEventsOf (s : State) : List DebEvent :=
  if s.seq.owner.busy && decide (s.seq.op = tickWord) && decide (s.seq.step = 19) then [.sample (keysampleRaw s)]
  else if decide (s.seq.owner = .none) && decide (arbitrate s = .host) then
    match decode s.intake.cmdSlot with
    | .ok i => startedEvents i
    | .error _ => []
  else []

/-- The history since the last reset after n more edges, h being the history so far: an edge in a cycle with `rst_n = 0`
starts it anew. -/
def historyOf : Nat → State → List DebEvent → List DebEvent
  | 0, _, h => h
  | n + 1, s, h =>
    match step s with
    | .next t => historyOf n t (if s.env.pins.rstN then h ++ debEventsOf s else [])
    | .fault _ => h
    | .refused _ => h

/-! ### The invariant -/

/-- "`POS < N_WIN` holds in every state", and the ring always holds exactly N entries (R24). -/
abbrev ringOk (s : State) : Prop := s.deb.ring.length = s.cfg.nWin ∧ s.deb.pos.toNat < s.cfg.nWin

/-- `CUR = PREV` (R124), and a bit is in at most one edge mask (R127). -/
abbrev edgesOk (s : State) : Prop := s.deb.cur = s.deb.prev ∧ s.deb.down &&& s.deb.up = 0

/-- op is a command and step one of its micro-steps after the first (R104). -/
def inProgress (op : Word) (step : BitVec 7) : Bool :=
  match decode op with
  | .ok i => decide (1 ≤ step.toNat) && decide (step.toNat < stepsOf i)
  | .error _ => false

/-- What `OWNER` says of `OP`, `STEP` and `INIT_CNT` (R25, R103, R104, R192). -/
def ownerOk (s : State) : Bool :=
  match s.seq.owner with
  | .none => decide (s.seq.step = 0)
  | .ext => decide (s.seq.step = 0)
  | .init => inProgress s.seq.op s.seq.step && decide (s.seq.op = initWord s.seq.initCnt) && decide (s.seq.initCnt.toNat < 4)
  | .tick => inProgress s.seq.op s.seq.step && decide (s.seq.op = tickWord) && decide (s.seq.initCnt = 4)
  | .host => inProgress s.seq.op s.seq.step && decide (s.seq.initCnt = 4)

/-- Sequencer and grant (R25, R191). -/
abbrev seqOk (s : State) : Prop :=
  ownerOk s = true ∧ s.seq.initCnt.toNat ≤ 4 ∧ (s.intake.extGnt = true ↔ s.seq.owner = .ext)

/-- Preemption (R27, R195, R196): only a HOST ADCREAD is ever suspended, only while a TICK KEYSAMPLE runs, and only it
can be corrupted. -/
abbrev suspOk (s : State) : Prop :=
  (s.cfg.adcGuarded = true → s.susp = Suspended.reset) ∧
  (s.susp.valid = true →
    s.seq.owner = .tick ∧ s.susp.owner = .host ∧ opcOf s.susp.op = 0x6 ∧ inProgress s.susp.op s.susp.step = true ∧
      s.susp.adcCorrupt = true) ∧
  (s.susp.adcCorrupt = true → s.susp.valid = true ∨ (s.seq.owner = .host ∧ opcOf s.seq.op = 0x6))

/-- Between KEYSAMPLE's steps 1 and 2 (R254). -/
def capturing (s : State) : Bool := s.seq.owner.busy && decide (s.seq.op = tickWord) && decide (s.seq.step = 2)

/-- Between LEDWRITE's steps 25 and 26 (R254). -/
def latching (s : State) : Bool := s.seq.owner.busy && decide (opcOf s.seq.op = 0x5) && decide (s.seq.step = 26)

/-- From ADCREAD's step 1 to its step 74, suspended or not (R254). -/
def converting (s : State) : Bool :=
  (s.seq.owner.busy && decide (opcOf s.seq.op = 0x6) && decide (2 ≤ s.seq.step.toNat))
    || (s.suspended && decide (2 ≤ s.susp.step.toNat))

/-- The control lines have their idle levels but for the cycles that R254 names. -/
abbrev linesOk (s : State) : Prop :=
  s.pinr.kld = !capturing s ∧ s.pinr.llat = latching s ∧ s.pinr.cs = !converting s

/-- The invariant of the machine. -/
abbrev Inv (s : State) : Prop :=
  s.cfg.legal = true ∧ ringOk s ∧ edgesOk s ∧ seqOk s ∧ suspOk s ∧ linesOk s

/-- No reset and no EXT request at any of the next n edges, which the environment lists. -/
abbrev calm (n : Nat) (s : State) : Prop :=
  n ≤ (comingLevels s).length ∧
    ∀ k, k < n →
      (levelsAt (comingLevels s) k).rstN = true ∧ (levelsAt (comingLevels s) k).extReq = false

/-- A processed edge of a legal block: `rst_n = 1` (R101). -/
abbrev live (s : State) : Prop := s.cfg.legal = true ∧ s.env.pins.rstN = true

/-- What is left of an operation when its owner finishes it: the sequencer is idle (R104). -/
def idled (s : State) : State := (s.setOwner .none).setStep 0

end Sys2Proof.Machine
end

