-- ==== Sys2Proof/Certificates/Slice0/Obligations.lean ====
section
/-! DEFINITION. The statements for the provers. Each docstring names the rule of spec/ it formalises, or the log entry of a
choice of the model. -/

open Sys2Proof Sys2Proof.Machine

/-! ### Encoding -/

/-- R70, R72, R75: decoding the word of a command gives the command back, and a word that decodes is the word of what it
decodes to. -/
def Obligations.DecodeAndEncodeAgree : Prop :=
  (∀ i : Instr, decode (encode i) = .ok i) ∧ ∀ (w : Word) (i : Instr), decode w = .ok i → encode i = w

/-- R72, R73: at most one row matches a word; the words that decode are those that match exactly one; and the row they
match is that of the command they decode to. -/
def Obligations.WordsDecodeIffOneRowMatches : Prop :=
  ∀ w : Word,
    (matchingRows w).length ≤ 1 ∧ ((∃ i, decode w = .ok i) ↔ legalWord w = true) ∧
      ∀ i, decode w = .ok i → w &&& rowMask i = rowMatch i

/-- Words of 95 section 2.1: the legal ones decode to the commands its table gives, the others are illegal. The names of
the two rejections are the model's (DESIGN CHOICE, log 19): the spec records no cause of an illegal word. -/
def Obligations.SpecTableWordsDecode : Prop :=
  decode 0x0000 = .ok .nop ∧ decode 0x10FF = .ok (.record 0xFF) ∧ decode 0x2000 = .ok .keysample ∧
    decode 0x3000 = .ok .dbread ∧ decode 0x4000 = .ok .updedge ∧ decode 0x5081 = .ok (.ledwrite 0x81) ∧
    decode 0x6200 = .ok (.adcread 2) ∧ decode 0x703C = .ok (.xfer 0x3C) ∧
    decode 0x6400 = .error .nonzeroField ∧ decode 0x1100 = .error .nonzeroField ∧
    decode 0x8000 = .error .noSuchOpcode

/-- R75: a line with an operand in range encodes to the row's match bits with the operand in its field; an operand out
of range is not encoded. -/
def Obligations.AssemblerEncodesOperandsInRange : Prop :=
  (∀ n, n < 256 →
    (assembleLine (.command .record (some n))).map (fun i => (encode i).toNat) = some (0x1000 + n) ∧
    (assembleLine (.command .ledwrite (some n))).map (fun i => (encode i).toNat) = some (0x5000 + n) ∧
    (assembleLine (.command .xfer (some n))).map (fun i => (encode i).toNat) = some (0x7000 + n)) ∧
  (∀ n, n < 4 →
    (assembleLine (.command .adcread (some n))).map (fun i => (encode i).toNat) = some (0x6000 + 256 * n)) ∧
  (∀ n, 256 ≤ n →
    assembleLine (.command .record (some n)) = none ∧ assembleLine (.command .ledwrite (some n)) = none ∧
      assembleLine (.command .xfer (some n)) = none) ∧
  (∀ n, 4 ≤ n → assembleLine (.command .adcread (some n)) = none)

/-! ### One step of the machine -/

/-- R103, R104, R195: with an operation in progress a step runs the micro-step `STEP` of the command that `OP` decodes
to; at an idle edge it runs micro-step 0 of the command in the slot, of the tick's KEYSAMPLE or of INIT's next ADCREAD,
whichever is selected; under the preemption condition it runs micro-step 0 of a KEYSAMPLE. Around it stand the other
events of the edge (`afterEdge`) and, at a start, `OP <- w` (`keepWord`). -/
def Obligations.StepRunsTheDecodedCommand : Prop :=
  (∀ (s : State) (i : Instr),
    live s → s.seq.owner.busy = true → preemptCondition s = false → decode s.seq.op = .ok i →
      step s = mapNext (afterEdge s) (exec i s)) ∧
  (∀ (s : State) (i : Instr),
    live s → s.seq.owner = .none → arbitrate s = .host → decode s.intake.cmdSlot = .ok i →
      step s =
        mapNext (fun t => afterEdge s (keepWord i s.intake.cmdSlot t))
          (exec i (((s.setCmdFull false).setOwner .host).setStep 0))) ∧
  (∀ s : State,
    live s → s.seq.owner = .none → arbitrate s = .tick →
      step s =
        mapNext (fun t => afterEdge s (t.setOp 0x2000))
          (exec .keysample (((s.setTickPend false).setOwner .tick).setStep 0))) ∧
  (∀ s : State,
    live s → s.seq.owner = .none → arbitrate s = .init →
      step s =
        mapNext (fun t => afterEdge s (t.setOp (0x6000 ||| (s.seq.initCnt.setWidth 16 <<< 8))))
          (exec (.adcread (s.seq.initCnt.setWidth 2)) ((s.setOwner .init).setStep 0))) ∧
  ∀ s : State,
    live s → preemptCondition s = true →
      step s =
        mapNext (fun t => afterEdge s (t.setOp 0x2000)) (exec .keysample (((suspend s).setOwner .tick).setStep 0))

/-- R104 for every command: a micro-step that the command has answers a next state; before the last one only `STEP`
goes up by 1; the last one ends the operation, counts an INIT conversion, and resumes a suspended ADCREAD. -/
def Obligations.MicroStepThenBookkeeping : Prop :=
  ∀ (i : Instr) (s : State), s.seq.step.toNat < stepsOf i →
    ∃ t, exec i s = .next t ∧ t.cfg = s.cfg ∧ t.intake = s.intake ∧ t.env = s.env ∧
      (s.seq.step.toNat + 1 < stepsOf i →
        t.seq.owner = s.seq.owner ∧ t.seq.op = s.seq.op ∧ t.seq.step.toNat = s.seq.step.toNat + 1 ∧
          t.seq.initCnt = s.seq.initCnt ∧ t.susp = s.susp) ∧
      (s.seq.step.toNat + 1 = stepsOf i →
        (s.seq.owner = .init →
          t.seq.owner = .none ∧ t.seq.step = 0 ∧ t.seq.op = s.seq.op ∧ t.seq.initCnt = s.seq.initCnt + 1) ∧
        (s.seq.owner = .tick → s.suspended = true →
          t.seq.owner = s.susp.owner ∧ t.seq.step = s.susp.step ∧ t.seq.op = s.susp.op ∧ t.seq.acc = s.susp.acc ∧
            t.seq.r2 = s.susp.r2 ∧ t.seq.initCnt = s.seq.initCnt ∧ t.susp.valid = false) ∧
        (s.seq.owner ≠ .init → ¬(s.seq.owner = .tick ∧ s.suspended = true) →
          t.seq.owner = .none ∧ t.seq.step = 0 ∧ t.seq.op = s.seq.op ∧ t.seq.initCnt = s.seq.initCnt ∧
            t.susp.valid = s.susp.valid))

/-- The model's choice (log 11): a `STEP` that the command does not have, which no run reaches, stops. -/
def Obligations.StrayStepStops : Prop :=
  ∀ (i : Instr) (s : State), stepsOf i ≤ s.seq.step.toNat → exec i s = .fault .strayStep

/-- R243, R240 (parameters), log 2 (script): an edge changes no parameter, counts itself, and takes the next listed
levels. -/
def Obligations.EdgeKeepsParametersAndTakesNextLevels : Prop :=
  ∀ s t : State, step s = .next t →
    t.cfg = s.cfg ∧ t.env.edges = s.env.edges + 1 ∧
      ∀ p ps, s.env.script = p :: ps → t.env.pins = p ∧ t.env.script = ps

/-! ### NOP and the debounce family -/

/-- R108: NOP does nothing; its start clears `CMD_FULL`; no other word is a NOP. -/
def Obligations.NopDoesNothing : Prop :=
  (∀ s : State, s.seq.step.toNat = 0 → s.seq.owner = .host → exec .nop s = .next (idled s)) ∧
  (∀ s : State, live s → s.seq.owner = .none → arbitrate s = .host → s.intake.cmdSlot = 0x0000 →
    step s = .next (afterEdge s (idled (s.setCmdFull false)))) ∧
  decode 0x0000 = .ok .nop ∧ ∀ w, decode w = .ok .nop → w = 0x0000

/-- R122: RECORD d stores d at `POS` as given, moves `POS` on modulo `N_WIN`, and changes nothing else. Only the host
runs it. -/
def Obligations.RecordStoresTheGivenSample : Prop :=
  ∀ (d : Byte) (s : State), s.seq.step.toNat = 0 → s.seq.owner = .host →
    encode (.record d) = 0x1000 ||| d.setWidth 16 ∧ rowMask (.record d) = 0xFF00 ∧
    exec (.record d) s =
      .next (idled (s.setDeb
        { s.deb with
          ring := s.deb.ring.set s.deb.pos.toNat d,
          pos := BitVec.ofNat 7 ((s.deb.pos.toNat + 1) % s.cfg.nWin) }))

/-- R123: DBREAD writes the fold of the ring, zero-extended, to `RESULT` and changes nothing else; a bit of the fold is
1 iff it is 1 in every entry. -/
def Obligations.DbreadReadsTheFold : Prop :=
  ∀ s : State, s.seq.step.toNat = 0 → s.seq.owner = .host →
    encode .dbread = 0x3000 ∧ rowMask .dbread = 0xFFFF ∧
    ∃ c : Byte, (∀ i, i < 8 → c.getLsbD i = s.deb.ring.all fun v => v.getLsbD i) ∧
      exec .dbread s = .next (idled (s.setResult (c.setWidth 16)))

/-- R124: UPDEDGE computes the edge masks from the fold and the previous snapshot, then both snapshots become the fold;
nothing else changes. -/
def Obligations.UpdedgeComputesTheEdges : Prop :=
  ∀ s : State, s.seq.step.toNat = 0 → s.seq.owner = .host →
    encode .updedge = 0x4000 ∧ rowMask .updedge = 0xFFFF ∧
    ∃ c : Byte, (∀ i, i < 8 → c.getLsbD i = s.deb.ring.all fun v => v.getLsbD i) ∧
      exec .updedge s =
        .next (idled (s.setDeb
          { s.deb with
            down := (s.deb.prev ^^^ c) &&& c,
            up := (s.deb.prev ^^^ c) &&& s.deb.prev,
            cur := c,
            prev := c }))

/-- R127: after every UPDEDGE the masks are the bits pressed and the bits released since the previous snapshot, and no
bit is in both. -/
def Obligations.EdgeMasksAreDisjoint : Prop :=
  ∀ s : State, s.seq.step.toNat = 0 →
    ∃ t, exec .updedge s = .next t ∧
      t.deb.down = foldAnd s.deb.ring &&& ~~~s.deb.prev ∧ t.deb.up = s.deb.prev &&& ~~~foldAnd s.deb.ring ∧
      t.deb.down &&& t.deb.up = 0

/-- R128: an UPDEDGE with the ring as the last UPDEDGE saw it and its snapshot still in `PREV` gives empty masks. -/
def Obligations.SecondUpdedgeIsEmpty : Prop :=
  ∀ s t s' t' : State,
    s.seq.step.toNat = 0 → s'.seq.step.toNat = 0 → exec .updedge s = .next t → s'.deb = t.deb →
      exec .updedge s' = .next t' → t'.deb.down = 0 ∧ t'.deb.up = 0

/-- R121, R124, R240, R253 for every run from reset of every legal block in every environment: the debounce registers are
those that the history of recorded samples and updates since the last reset gives. The three statements on histories
that follow therefore hold of every run. -/
def Obligations.RunsFollowTheirDebounceHistory : Prop :=
  ∀ (c : Config) (e : Env) (n : Nat), c.legal = true →
    ∃ t, runEdges n (.resetWith c e) = .next t ∧ t.cfg = c ∧ t.deb = debAfter c (historyOf n (.resetWith c e) [])

/-- R126: after any history of samples and updates since reset, `POS` is the number of samples modulo `N_WIN`, the last
`N_WIN` samples are in the ring at their places, and the fold is their AND, or 0 while there are fewer. -/
def Obligations.WindowHoldsTheLastSamples : Prop :=
  ∀ (c : Config) (events : List DebEvent), c.windowOk = true →
    let vs := samplesOf events
    let d := debAfter c events
    d.ring.length = c.nWin ∧ d.pos.toNat = vs.length % c.nWin ∧
      (∀ k, k < vs.length → vs.length ≤ k + c.nWin → d.ring.getD (k % c.nWin) 0 = vs.getD k 0) ∧
      foldAnd d.ring = if c.nWin ≤ vs.length then foldAnd (lastN c.nWin vs) else 0

/-- R129: a bit is reported pressed only if at least `N_WIN` samples were recorded since reset and it is 1 in each of the
last `N_WIN`. -/
def Obligations.TransientsNeverRegisterAsPressed : Prop :=
  ∀ (c : Config) (events : List DebEvent) (i : Nat), c.windowOk = true → i < 8 →
    (debAfter c (events ++ [.update])).down.getLsbD i = true →
      c.nWin ≤ (samplesOf events).length ∧ ∀ v ∈ lastN c.nWin (samplesOf events), v.getLsbD i = true

/-- R130: a bit of the fold is 1 only if the last `N_WIN` recorded samples all have it, and one sample without it makes
it 0 at once. -/
def Obligations.SlowToSetFastToClear : Prop :=
  ∀ (c : Config) (events : List DebEvent) (i : Nat), c.windowOk = true → i < 8 →
    ((foldAnd (debAfter c events).ring).getLsbD i = true →
      c.nWin ≤ (samplesOf events).length ∧ ∀ v ∈ lastN c.nWin (samplesOf events), v.getLsbD i = true) ∧
    ∀ v : Byte, v.getLsbD i = false → (foldAnd (debAfter c (events ++ [.sample v])).ring).getLsbD i = false

/-- R125: bit i of the fold, of the recorded ring and of the updated snapshots and masks depends only on bit i of the
ring, of `PREV` and of the sample. -/
def Obligations.DebounceLanesAreIndependent : Prop :=
  ∀ (n i : Nat) (d d' : Debounce) (v v' : Byte), i < 8 →
    (d.ring.map fun x => x.getLsbD i) = (d'.ring.map fun x => x.getLsbD i) → d.pos = d'.pos →
    d.prev.getLsbD i = d'.prev.getLsbD i → v.getLsbD i = v'.getLsbD i →
      (foldAnd d.ring).getLsbD i = (foldAnd d'.ring).getLsbD i ∧
      ((recordSample n v d).ring.map fun x => x.getLsbD i) = ((recordSample n v' d').ring.map fun x => x.getLsbD i) ∧
      (updateEdges d).down.getLsbD i = (updateEdges d').down.getLsbD i ∧
      (updateEdges d).up.getLsbD i = (updateEdges d').up.getLsbD i ∧
      (updateEdges d).cur.getLsbD i = (updateEdges d').cur.getLsbD i ∧
      (updateEdges d).prev.getLsbD i = (updateEdges d').prev.getLsbD i

/-- R253: the debounce registers change only at the last step of a KEYSAMPLE, at a host RECORD and at a host UPDEDGE, and
then as the record primitive or the update says. -/
def Obligations.DebounceRegistersHaveThreeWriters : Prop :=
  ∀ s t : State, Inv s → live s → step s = .next t →
    ((s.seq.owner.busy = true ∧ s.seq.op = tickWord ∧ s.seq.step = 19) →
      t.deb = recordSample s.cfg.nWin (keysampleRaw s) s.deb) ∧
    (∀ d, (s.seq.owner = .none ∧ arbitrate s = .host ∧ s.intake.cmdSlot = encode (.record d)) →
      t.deb = recordSample s.cfg.nWin d s.deb) ∧
    ((s.seq.owner = .none ∧ arbitrate s = .host ∧ s.intake.cmdSlot = 0x4000) → t.deb = updateEdges s.deb) ∧
    (t.deb ≠ s.deb →
      (s.seq.owner.busy = true ∧ s.seq.op = tickWord ∧ s.seq.step = 19) ∨
      (s.seq.owner = .none ∧ arbitrate s = .host ∧
        (s.intake.cmdSlot = 0x4000 ∨ ∃ d, s.intake.cmdSlot = encode (.record d))))

/-! ### KEYSAMPLE -/

/-- R143's table: each micro-step of KEYSAMPLE, for every owner. -/
def Obligations.KeysampleFollowsItsTable : Prop :=
  encode .keysample = 0x2000 ∧ rowMask .keysample = 0xFFFF ∧
  ∀ s : State,
    (s.seq.step.toNat = 0 → exec .keysample s = .next (((s.setOe false).setAcc 0).setStep (s.seq.step + 1))) ∧
    (s.seq.step.toNat = 1 → exec .keysample s = .next ((s.setKld false).setStep (s.seq.step + 1))) ∧
    (s.seq.step.toNat = 2 → exec .keysample s = .next ((s.setKld true).setStep (s.seq.step + 1))) ∧
    (∀ j, j < 8 → s.seq.step.toNat = 3 + 2 * j →
      exec .keysample s = .next ((s.setSck true).setStep (s.seq.step + 1))) ∧
    (∀ j, j < 8 → s.seq.step.toNat = 4 + 2 * j →
      exec .keysample s =
        .next (((s.setAcc (shiftIn s.seq.acc (!s.env.pins.dataI))).setSck false).setStep (s.seq.step + 1))) ∧
    (s.seq.step.toNat = 19 →
      exec .keysample s =
        .next (finish (s.setDeb (recordSample s.cfg.nWin
          (if s.suspended then Config.draw8 s.env.edges
           else if s.cfg.reorder && !s.env.pins.rotate then permute s.cfg.permR s.seq.acc
           else s.seq.acc) s.deb))))

/-- R144, R143, R251 for a whole KEYSAMPLE that preempts nothing: the recorded byte has the inverse of the j-th sampled
level in bit 7-j, permuted when the gate is open at step 19; the clock ends low with 8 rising edges, or 7 if it started
high; the data line stays an input; nothing else changes. -/
def Obligations.KeysampleRecordsInvertedLevels : Prop :=
  ∀ (s : State) (ps : List Inputs), s.seq.step.toNat = 0 → ps.length = 20 →
    (s.seq.owner = .host ∨ s.seq.owner = .tick) → s.suspended = false →
    ∃ (t : State) (acc : Byte), runOp .keysample ps s = .next t ∧
      (∀ j, j < 8 → acc.getLsbD (7 - j) = !(levelsAt ps (4 + 2 * j)).dataI) ∧
      t.deb =
        recordSample s.cfg.nWin
          (if s.cfg.reorder && !(levelsAt ps 19).rotate then permute s.cfg.permR acc else acc) s.deb ∧
      t.pinr = { s.pinr with sck := false, oe := false, kld := true } ∧
      t.seq = { s.seq with owner := .none, step := 0, acc := acc } ∧
      t.analog = s.analog ∧ t.intake = s.intake ∧ t.susp = s.susp ∧ t.cfg = s.cfg ∧
      (dataAtRising (pinTrace .keysample ps s)).length = (if s.pinr.sck then 7 else 8) ∧
      fallingEdges (pinTrace .keysample ps s) = 8

/-! ### LEDWRITE -/

/-- R145's table: each micro-step of LEDWRITE d run by the host; and its critical section: every edge of a LEDWRITE in
progress is its own micro-step, whatever tick, command or EXT request waits. -/
def Obligations.LedwriteFollowsItsTable : Prop :=
  ∀ (d : Byte) (s : State), s.seq.owner = .host →
    encode (.ledwrite d) = 0x5000 ||| d.setWidth 16 ∧ rowMask (.ledwrite d) = 0xFF00 ∧
    (s.seq.step.toNat = 0 →
      exec (.ledwrite d) s =
        .next ((((s.setXout
          (if s.cfg.reorder && !s.env.pins.rotate then permute s.cfg.permW d else d)).setOe true).setLlat false).setStep
            (s.seq.step + 1))) ∧
    (∀ j, j < 8 → s.seq.step.toNat = 1 + 3 * j →
      exec (.ledwrite d) s = .next ((s.setData (s.seq.xout.getLsbD (7 - j))).setStep (s.seq.step + 1))) ∧
    (∀ j, j < 8 → s.seq.step.toNat = 2 + 3 * j →
      exec (.ledwrite d) s = .next ((s.setSck false).setStep (s.seq.step + 1))) ∧
    (∀ j, j < 8 → s.seq.step.toNat = 3 + 3 * j →
      exec (.ledwrite d) s = .next ((s.setSck true).setStep (s.seq.step + 1))) ∧
    (s.seq.step.toNat = 25 → exec (.ledwrite d) s = .next ((s.setLlat true).setStep (s.seq.step + 1))) ∧
    (s.seq.step.toNat = 26 → exec (.ledwrite d) s = .next (idled (s.setLlat false))) ∧
    (live s → s.seq.op = encode (.ledwrite d) → step s = mapNext (afterEdge s) (exec (.ledwrite d) s))

/-- R146, R145, R251 for a whole LEDWRITE d: exactly eight rising clock edges, with the bits of the permuted byte on the
data line most significant first; 8 falling edges, or 7 if the clock started low; one latch pulse; the clock ends high;
nothing else changes. -/
def Obligations.LedwriteShiftsOutAndLatches : Prop :=
  ∀ (d : Byte) (s : State) (ps : List Inputs), s.seq.step.toNat = 0 → ps.length = 27 → s.seq.owner = .host →
    ∃ (t : State) (x : Byte), runOp (.ledwrite d) ps s = .next t ∧
      x = (if s.cfg.reorder && !(levelsAt ps 0).rotate then permute s.cfg.permW d else d) ∧
      dataAtRising (pinTrace (.ledwrite d) ps s) = (List.range 8).map (fun j => x.getLsbD (7 - j)) ∧
      fallingEdges (pinTrace (.ledwrite d) ps s) = (if s.pinr.sck then 8 else 7) ∧
      latchPulses (pinTrace (.ledwrite d) ps s) = 1 ∧
      t.pinr = { s.pinr with sck := true, data := x.getLsbD 0, oe := true, llat := false } ∧
      t.seq = { s.seq with owner := .none, step := 0, xout := x } ∧
      t.deb = s.deb ∧ t.analog = s.analog ∧ t.intake = s.intake ∧ t.susp = s.susp ∧ t.cfg = s.cfg

/-! ### XFER -/

/-- R140's table: each step t of the byte exchange, with no chip-select or latch line touched; a received bit enters
`ACC` at its low end. -/
def Obligations.ExchangeFollowsItsTable : Prop :=
  (∀ (acc : Byte) (b : Bool),
    (shiftIn acc b).getLsbD 0 = b ∧ ∀ i, i < 7 → (shiftIn acc b).getLsbD (i + 1) = acc.getLsbD i) ∧
  ∀ (b : Byte) (s : State),
    xchg b 0 s = ((s.setData (b.getLsbD 7)).setOe true).setAcc 0 ∧
    (∀ j, 1 ≤ j → j < 8 → xchg b (3 * j) s = s.setData (b.getLsbD (7 - j))) ∧
    (∀ j, j < 8 → xchg b (3 * j + 1) s = s.setSck true) ∧
    ∀ j, j < 8 → xchg b (3 * j + 2) s = (s.setAcc (shiftIn s.seq.acc s.env.pins.sdi)).setSck false

/-- R140, R147: each micro-step of XFER d run by the host. -/
def Obligations.XferFollowsItsTable : Prop :=
  ∀ (d : Byte) (s : State), s.seq.owner = .host →
    encode (.xfer d) = 0x7000 ||| d.setWidth 16 ∧ rowMask (.xfer d) = 0xFF00 ∧
    (s.seq.step.toNat = 0 →
      exec (.xfer d) s = .next ((((s.setData (d.getLsbD 7)).setOe true).setAcc 0).setStep (s.seq.step + 1))) ∧
    (∀ j, 1 ≤ j → j < 8 → s.seq.step.toNat = 3 * j →
      exec (.xfer d) s = .next ((s.setData (d.getLsbD (7 - j))).setStep (s.seq.step + 1))) ∧
    (∀ j, j < 8 → s.seq.step.toNat = 3 * j + 1 →
      exec (.xfer d) s = .next ((s.setSck true).setStep (s.seq.step + 1))) ∧
    (∀ j, j < 7 → s.seq.step.toNat = 3 * j + 2 →
      exec (.xfer d) s =
        .next (((s.setAcc (shiftIn s.seq.acc s.env.pins.sdi)).setSck false).setStep (s.seq.step + 1))) ∧
    (s.seq.step.toNat = 23 →
      exec (.xfer d) s =
        .next (idled (((s.setAcc (shiftIn s.seq.acc s.env.pins.sdi)).setSck false).setResult
          ((shiftIn s.seq.acc s.env.pins.sdi).setWidth 16))))

/-- R147, R140, R251 for a whole XFER d: `RESULT` is the received byte, the j-th sampled level in bit 7-j; d is on the
data line at the rising edges, most significant bit first, without its bit 7 if the clock started high; the clock ends
low; nothing else changes. -/
def Obligations.XferReturnsTheReceivedByte : Prop :=
  ∀ (d : Byte) (s : State) (ps : List Inputs), s.seq.step.toNat = 0 → ps.length = 24 → s.seq.owner = .host →
    ∃ (t : State) (r : Byte), runOp (.xfer d) ps s = .next t ∧
      (∀ j, j < 8 → r.getLsbD (7 - j) = (levelsAt ps (3 * j + 2)).sdi) ∧
      t.analog = { s.analog with result := r.setWidth 16 } ∧
      dataAtRising (pinTrace (.xfer d) ps s) =
        ((List.range 8).map (fun j => d.getLsbD (7 - j))).drop (if s.pinr.sck then 1 else 0) ∧
      fallingEdges (pinTrace (.xfer d) ps s) = 8 ∧
      t.pinr = { s.pinr with sck := false, data := d.getLsbD 0, oe := true } ∧
      t.seq = { s.seq with owner := .none, step := 0, acc := r } ∧
      t.deb = s.deb ∧ t.intake = s.intake ∧ t.susp = s.susp ∧ t.cfg = s.cfg

/-! ### ADCREAD -/

/-- R171's table: each micro-step of ADCREAD c, the corrupted conversion included. The three exchanges are `xchg`, the
steps of R140 (`ExchangeFollowsItsTable`), on the request bytes of R170. -/
def Obligations.AdcreadFollowsItsTable : Prop :=
  ∀ (c : Channel) (s : State),
    encode (.adcread c) = 0x6000 ||| (c.setWidth 16 <<< 8) ∧ rowMask (.adcread c) = 0xFCFF ∧
    (s.seq.step.toNat = 0 → exec (.adcread c) s = .next ((s.setLlat false).setStep (s.seq.step + 1))) ∧
    (s.seq.step.toNat = 1 → exec (.adcread c) s = .next ((s.setCs false).setStep (s.seq.step + 1))) ∧
    (∀ k, k < 24 → s.seq.step.toNat = 2 + k →
      exec (.adcread c) s = .next ((xchg 0x01 k s).setStep (s.seq.step + 1))) ∧
    (∀ k, k < 23 → s.seq.step.toNat = 26 + k →
      exec (.adcread c) s = .next ((xchg (s.cfg.adcReq2.get c.toFin) k s).setStep (s.seq.step + 1))) ∧
    (s.seq.step.toNat = 49 →
      exec (.adcread c) s =
        .next (((xchg (s.cfg.adcReq2.get c.toFin) 23 s).setR2 (shiftIn s.seq.acc s.env.pins.sdi)).setStep
          (s.seq.step + 1))) ∧
    (∀ k, k < 24 → s.seq.step.toNat = 50 + k →
      exec (.adcread c) s = .next ((xchg s.cfg.adcReq3 k s).setStep (s.seq.step + 1))) ∧
    (s.seq.step.toNat = 74 →
      let v : AdcValue :=
        if s.corrupt then Config.draw11 s.env.edges
        else ((s.seq.r2 &&& 0x07).setWidth 11 <<< 8) ||| s.seq.acc.setWidth 11
      let h := (s.setCs true).setHist (s.analog.hist.set c.toNat v c.isLt)
      let h' := if s.corrupt then h.setCorrupt false else h
      (s.seq.owner = .host → exec (.adcread c) s = .next (idled (h'.setResult (v.setWidth 16)))) ∧
      (s.seq.owner = .init → exec (.adcread c) s = .next ((idled h').setInitCnt (s.seq.initCnt + 1))))

/-- R171-R174, R175, R251 for a whole uncorrupted ADCREAD c of the host or of INIT: the value has the third response byte
in bits [7:0] and the low three bits of the second in [10:8]; it goes to the history of c, and to `RESULT` when the owner
is HOST; the three request bytes are on the data line at the rising edges; the converter is deselected again. -/
def Obligations.AdcreadConvertsTheResponses : Prop :=
  ∀ (c : Channel) (s : State) (ps : List Inputs), s.seq.step.toNat = 0 → ps.length = 75 →
    (s.seq.owner = .host ∨ s.seq.owner = .init) → s.corrupt = false →
    ∃ (t : State) (v : AdcValue), runOp (.adcread c) ps s = .next t ∧
      (∀ j, j < 8 → v.getLsbD (7 - j) = (levelsAt ps (50 + 3 * j + 2)).sdi) ∧
      (∀ j, 5 ≤ j → j < 8 → v.getLsbD (15 - j) = (levelsAt ps (26 + 3 * j + 2)).sdi) ∧
      t.analog =
        { hist := s.analog.hist.set c.toNat v c.isLt,
          result := if s.seq.owner = .host then v.setWidth 16 else s.analog.result } ∧
      dataAtRising (pinTrace (.adcread c) ps s) =
        ((List.range 8).map (fun j => (0x01 : Byte).getLsbD (7 - j)) ++
          (List.range 8).map (fun j => (s.cfg.adcReq2.get c.toFin).getLsbD (7 - j)) ++
          (List.range 8).map (fun j => s.cfg.adcReq3.getLsbD (7 - j))).drop (if s.pinr.sck then 1 else 0) ∧
      fallingEdges (pinTrace (.adcread c) ps s) = 24 ∧
      t.pinr = { s.pinr with sck := false, data := s.cfg.adcReq3.getLsbD 0, oe := true, llat := false, cs := true } ∧
      t.seq.owner = .none ∧ t.seq.step = 0 ∧ t.seq.op = s.seq.op ∧ t.seq.xout = s.seq.xout ∧
      t.seq.initCnt = (if s.seq.owner = .init then s.seq.initCnt + 1 else s.seq.initCnt) ∧
      t.deb = s.deb ∧ t.intake = s.intake ∧ t.susp = s.susp ∧ t.cfg = s.cfg

/-- R175: for every 11-bit value, response bytes that carry it give it back, whatever bits [7:3] of the second are. -/
def Obligations.ResponsesRoundTrip : Prop :=
  ∀ (v : AdcValue) (r2 : Byte), r2.extractLsb' 0 3 = v.extractLsb' 8 3 → adcValue r2 (v.extractLsb' 0 8) = v

/-! ### Permutations -/

/-- R141, R148: under a legal table the permutation takes bit `P[i]` to bit i, moves no position outside its set, loses no
value, and keeps the number of set bits. -/
def Obligations.LegalPermutationsAreBijections : Prop :=
  ∀ (S : List BitPos) (P : Perm), Perm.legal S P = true →
    (∀ (v : Byte) (i : BitPos), (permute P v).getLsbD i = v.getLsbD P[i]) ∧
    (∀ (v : Byte) (i : BitPos), i ∉ S → (permute P v).getLsbD i = v.getLsbD i) ∧
    (∀ v v' : Byte, permute P v = permute P v' → v = v') ∧
    ∀ v : Byte, (bitPositions.countP fun i => (permute P v).getLsbD i) = bitPositions.countP fun i => v.getLsbD i

/-- R148: a block whose configuration is not legal is refused, and nothing else is. That step answers a refusal, and that
an F_CLK that is not positive is not legal, is the model's reading (log 10). -/
def Obligations.OnlyIllegalConfigurationsAreRefused : Prop :=
  (∀ s : State, s.cfg.legal = false → step s = .refused .illegalConfig) ∧
  ∀ (s : State) (r : Refusal), s.cfg.legal = true → step s ≠ .refused r

/-! ### Sequencer, arbitration, intake, exception -/

/-- R192: what an idle edge selects, in the fixed priority EXT, INIT, TICK, HOST; and what the selection does: R103 (start),
R193 (grant), R210 (an illegal word). -/
def Obligations.IdleEdgeStartsHighestPriority : Prop :=
  ∀ s : State, live s → s.seq.owner = .none →
    (s.env.pins.extReq = true → step s = .next (afterEdge s ((s.setOwner .ext).setExtGnt true))) ∧
    (s.env.pins.extReq = false → s.seq.initCnt.toNat < 4 →
      ∃ t, step s = .next t ∧ t.seq.owner = .init ∧ t.seq.op = 0x6000 ||| (s.seq.initCnt.setWidth 16 <<< 8) ∧
        t.seq.step = 1) ∧
    (s.env.pins.extReq = false → 4 ≤ s.seq.initCnt.toNat → s.intake.tickPend = true →
      ∃ t, step s = .next t ∧ t.seq.owner = .tick ∧ t.seq.op = 0x2000 ∧ t.seq.step = 1 ∧
        t.intake.tickPend = s.env.pins.sampleTick) ∧
    (∀ i, s.env.pins.extReq = false → 4 ≤ s.seq.initCnt.toNat → s.intake.tickPend = false →
      s.intake.cmdFull = true → decode s.intake.cmdSlot = .ok i →
      ∃ t, step s = .next t ∧ t.intake.cmdFull = false ∧
        (stepsOf i = 1 → t.seq.owner = .none ∧ t.seq.step = 0 ∧ t.seq.op = s.seq.op) ∧
        (1 < stepsOf i → t.seq.owner = .host ∧ t.seq.step = 1 ∧ t.seq.op = s.intake.cmdSlot)) ∧
    (s.env.pins.extReq = false → 4 ≤ s.seq.initCnt.toNat → s.intake.tickPend = false →
      s.intake.cmdFull = true → legalWord s.intake.cmdSlot = false →
      step s = .next (afterEdge s ((s.setCmdFull false).setErr true))) ∧
    (s.env.pins.extReq = false → 4 ≤ s.seq.initCnt.toNat → s.intake.tickPend = false →
      s.intake.cmdFull = false → step s = .next (afterEdge s s))

/-- R193: grant at an idle edge with a request, hold while the request stays, release at the first edge without it. -/
def Obligations.ExtGrantHoldRelease : Prop :=
  (∀ s : State, live s → s.seq.owner = .none → s.env.pins.extReq = true →
    step s = .next (afterEdge s ((s.setOwner .ext).setExtGnt true))) ∧
  (∀ s : State, live s → s.seq.owner = .ext → s.env.pins.extReq = true → step s = .next (afterEdge s s)) ∧
  (∀ s : State, live s → s.seq.owner = .ext → s.env.pins.extReq = false →
    step s = .next (afterEdge s ((s.setOwner .none).setExtGnt false)))

/-- R102, R103, R30: a command is accepted at an edge exactly when it is offered and the slot is free; otherwise the slot
keeps its word, and only the start of a HOST operation frees it; that start needs a full slot, so no word is accepted at
its edge. `cmd_ready_o = rst_n & ~CMD_FULL`. -/
def Obligations.CommandIntakeNeedsFreeSlot : Prop :=
  (∀ s t : State, live s → step s = .next t →
    (s.env.pins.cmdValid = true → s.intake.cmdFull = false →
      t.intake.cmdSlot = s.env.pins.cmdWord ∧ t.intake.cmdFull = true) ∧
    (¬(s.env.pins.cmdValid = true ∧ s.intake.cmdFull = false) → t.intake.cmdSlot = s.intake.cmdSlot) ∧
    (s.env.pins.cmdValid = false → s.intake.cmdFull = false → t.intake.cmdFull = false) ∧
    (s.intake.cmdFull = true →
      (t.intake.cmdFull = false ↔ s.seq.owner = .none ∧ arbitrate s = .host)) ∧
    (s.seq.owner = .none ∧ arbitrate s = .host →
      s.intake.cmdFull = true ∧ t.intake.cmdFull = false ∧ t.intake.cmdSlot = s.intake.cmdSlot)) ∧
  ∀ s : State, (outputs s).cmdReady = (s.env.pins.rstN && !s.intake.cmdFull)

/-- R103, R101, R212: a tick sets `TICK_PEND`, a set winning over the clear; without a tick it is cleared only by the
start of a TICK KEYSAMPLE. -/
def Obligations.TicksCoalesceInOneBit : Prop :=
  ∀ s t : State, live s → step s = .next t →
    (s.env.pins.sampleTick = true → t.intake.tickPend = true) ∧
    (s.env.pins.sampleTick = false → s.intake.tickPend = false → t.intake.tickPend = false) ∧
    (s.env.pins.sampleTick = false → s.intake.tickPend = true →
      (t.intake.tickPend = false ↔ (s.seq.owner = .none ∧ arbitrate s = .tick) ∨ preemptCondition s = true))

/-- R210: an illegal word at the head of the sequencer sets `ERR` and clears `CMD_FULL`, nothing else; `ERR` is sticky;
no other edge sets it; only reset clears it. -/
def Obligations.IllegalCommandSetsStickyErr : Prop :=
  (∀ s : State, live s → s.seq.owner = .none → arbitrate s = .host → legalWord s.intake.cmdSlot = false →
    step s = .next (afterEdge s ((s.setCmdFull false).setErr true))) ∧
  (∀ s t : State, live s → step s = .next t →
    (s.intake.err = true → t.intake.err = true) ∧
    (t.intake.err = true → s.intake.err = true ∨
      (s.seq.owner = .none ∧ arbitrate s = .host ∧ legalWord s.intake.cmdSlot = false))) ∧
  ∀ s t : State, s.cfg.legal = true → s.env.pins.rstN = false → step s = .next t → t.intake.err = false

/-- R194, R109: with `ADC_GUARDED = true`, or for any operation that is no HOST ADCREAD, an operation in progress keeps
the sequencer and goes on by one step at every edge until its last, whatever EXT, a tick or the host do. -/
def Obligations.OperationsRunToCompletion : Prop :=
  ∀ (s t : State) (i : Instr), Inv s → live s → s.seq.owner.busy = true → decode s.seq.op = .ok i →
    (s.cfg.adcGuarded = true ∨ s.seq.owner ≠ .host ∨ opcOf s.seq.op ≠ 0x6) →
    step s = .next t → s.seq.step.toNat + 1 < stepsOf i →
      t.seq.owner = s.seq.owner ∧ t.seq.op = s.seq.op ∧ t.seq.step.toNat = s.seq.step.toNat + 1 ∧
        t.intake.extGnt = false

/-- R195: under its condition the sequencer saves the ADCREAD, marks it corrupted, takes the pending tick and performs
KEYSAMPLE step 0 for it; the condition is exactly R195's, so it never holds with `ADC_GUARDED = true` and no other
operation, INIT's conversions among them, is preempted. -/
def Obligations.PreemptionSavesTheAdcread : Prop :=
  (∀ s : State, live s → s.cfg.adcGuarded = false → s.seq.owner = .host → opcOf s.seq.op = 0x6 →
    s.susp.valid = false → s.intake.tickPend = true →
    ∃ t, step s = .next t ∧
      t.susp =
        { valid := true, owner := .host, op := s.seq.op, step := s.seq.step, acc := s.seq.acc, r2 := s.seq.r2,
          adcCorrupt := true } ∧
      t.seq = { s.seq with owner := .tick, op := 0x2000, step := 1, acc := 0 } ∧
      t.intake.tickPend = s.env.pins.sampleTick ∧ t.pinr = { s.pinr with oe := false } ∧
      t.deb = s.deb ∧ t.analog = s.analog) ∧
  ∀ s : State,
    preemptCondition s = true ↔
      s.cfg.adcGuarded = false ∧ s.seq.owner = .host ∧ opcOf s.seq.op = 0x6 ∧ s.susp.valid = false ∧
        s.intake.tickPend = true

/-- R196: the preempting KEYSAMPLE records the free value `draw_8()` and hands back to the ADCREAD; the corrupted
conversion's value is the free value `draw_11()`, and `ADC_CORRUPT` is cleared. -/
def Obligations.PreemptedAdcreadResumesCorrupted : Prop :=
  (∀ s : State, s.suspended = true → s.seq.owner = .tick → s.seq.step.toNat = 19 →
    ∃ t, exec .keysample s = .next t ∧ t.deb = recordSample s.cfg.nWin (Config.draw8 s.env.edges) s.deb ∧
      t.seq =
        { s.seq with owner := s.susp.owner, op := s.susp.op, step := s.susp.step, acc := s.susp.acc,
                     r2 := s.susp.r2 } ∧
      t.susp = { s.susp with valid := false } ∧ t.pinr = s.pinr ∧ t.analog = s.analog ∧ t.intake = s.intake ∧
      t.cfg = s.cfg) ∧
  ∀ (s : State) (c : Channel), s.corrupt = true → s.seq.owner = .host → s.seq.step.toNat = 74 →
    ∃ t, exec (.adcread c) s = .next t ∧
      t.analog =
        { hist := s.analog.hist.set c.toNat (Config.draw11 s.env.edges) c.isLt,
          result := (Config.draw11 s.env.edges).setWidth 16 } ∧
      t.susp = { s.susp with adcCorrupt := false } ∧ t.pinr = { s.pinr with cs := true } ∧
      t.seq = { s.seq with owner := .none, step := 0 } ∧ t.deb = s.deb ∧ t.intake = s.intake ∧ t.cfg = s.cfg

/-! ### Reset and the invariant -/

/-- R240, with the model's reading of the asynchronous reset (log 4): in a cycle with `rst_n = 0` the pins, STATUS and
`cmd_ready_o` are at their reset levels, and the edge that ends it gives the listed reset values. -/
def Obligations.ResetEdgeGivesTheResetState : Prop :=
  ∀ s : State, s.cfg.legal = true → s.env.pins.rstN = false →
    hostRead s 0x00 = 0x0020 ∧ (outputs s).cmdReady = false ∧
    (outputs s).lines =
      { sck := false, data := false, dataOe := true, keyLdN := true, ledLatch := false, adcCsN := true,
        extGnt := false } ∧
    ∃ t, step s = .next t ∧ t.cfg = s.cfg ∧
      t.deb = { ring := List.replicate s.cfg.nWin 0, pos := 0, cur := 0, prev := 0, down := 0, up := 0 } ∧
      t.seq = { owner := .none, op := 0, step := 0, acc := 0, xout := 0, r2 := 0, initCnt := 0 } ∧
      t.intake = { cmdSlot := 0, cmdFull := false, tickPend := false, err := false, extGnt := false } ∧
      t.susp = { valid := false, owner := .none, op := 0, step := 0, acc := 0, r2 := 0, adcCorrupt := false } ∧
      t.analog = { hist := #v[0, 0, 0, 0], result := 0 } ∧
      t.pinr = { sck := false, data := false, oe := true, kld := true, llat := false, cs := true }

/-- The invariant (R24, R124, R127, R25, R191, R27, R254) holds at reset, for every legal configuration and every
environment. -/
def Obligations.ResetMeetsTheInvariant : Prop :=
  ∀ (c : Config) (e : Env), c.legal = true → Inv (.resetWith c e)

/-- Every step keeps the invariant: the ring keeps `N_WIN` entries and `POS < N_WIN` (R24), `CUR = PREV` (R124), the masks
stay disjoint (R127), `EXT_GNT = 1` iff `OWNER = EXT` (R191), `OP` and `STEP` stay those of the owner's operation (R25),
only a HOST ADCREAD is suspended (R195), and the control lines have their idle levels outside the cycles R254 names. -/
def Obligations.StepKeepsTheInvariant : Prop := ∀ s t : State, Inv s → step s = .next t → Inv t

/-- R211, R194: a machine that meets the invariant never stops; every edge gives a next state. -/
def Obligations.NoStopFromTheInvariant : Prop := ∀ s : State, Inv s → ∃ t, step s = .next t

/-! ### Whole-machine rules -/

/-- R110: the datapath registers change only at an operation's last micro-step. -/
def Obligations.DatapathWrittenAtLastStepOnly : Prop :=
  ∀ s t : State, live s → step s = .next t → (t.deb ≠ s.deb ∨ t.analog ≠ s.analog) →
    (∃ i, s.seq.owner.busy = true ∧ decode s.seq.op = .ok i ∧ s.seq.step.toNat + 1 = stepsOf i) ∨
    (∃ i, s.seq.owner = .none ∧ arbitrate s = .host ∧ decode s.intake.cmdSlot = .ok i ∧ stepsOf i = 1)

/-- R253, R173, R174: `RESULT` changes only at a host DBREAD and at the last step of a host XFER or ADCREAD; the history
changes only at the last step of an ADCREAD of HOST or INIT, and only in its channel. -/
def Obligations.ResultAndHistoryWriters : Prop :=
  ∀ s t : State, Inv s → live s → step s = .next t →
    (t.analog.result ≠ s.analog.result →
      (s.seq.owner = .none ∧ arbitrate s = .host ∧ s.intake.cmdSlot = 0x3000) ∨
      (s.seq.owner = .host ∧ opcOf s.seq.op = 0x7 ∧ s.seq.step = 23) ∨
      (s.seq.owner = .host ∧ opcOf s.seq.op = 0x6 ∧ s.seq.step = 74)) ∧
    ∀ c : Fin 4, t.analog.hist.get c ≠ s.analog.hist.get c →
      (s.seq.owner = .host ∨ s.seq.owner = .init) ∧ opcOf s.seq.op = 0x6 ∧ s.seq.step = 74 ∧
        (chOf s.seq.op).toNat = c.val

/-- R191: the pin registers change only at a micro-step of KEYSAMPLE, LEDWRITE, ADCREAD or XFER, the commands with more
than one step; so not while EXT holds the lines and not at an idle edge that starts no such operation. -/
def Obligations.PinRegistersChangeOnlyInTransactions : Prop :=
  ∀ s t : State, Inv s → live s → step s = .next t → t.pinr ≠ s.pinr →
    ∃ i, stepsOf i ≠ 1 ∧
      ((s.seq.owner.busy = true ∧ decode s.seq.op = .ok i) ∨
       (s.seq.owner = .none ∧ t.seq.owner.busy = true ∧ decode t.seq.op = .ok i))

/-- R218, R142: the level of `rotate_i` matters only at a KEYSAMPLE's step 19 and a LEDWRITE's step 0: at every other edge
the next state does not depend on it. -/
def Obligations.RotateMattersAtTwoStepsOnly : Prop :=
  ∀ (s : State) (level : Bool), Inv s → live s →
    ¬(s.seq.owner.busy = true ∧ s.seq.op = tickWord ∧ s.seq.step = 19) →
    ¬(s.seq.owner = .none ∧ arbitrate s = .host ∧ opcOf s.intake.cmdSlot = 0x5) →
      step (withLevels { s.env.pins with rotate := level } s) = step s

/-- R107: the condition a host polls for in STATUS becomes true only at the edge where the host's command did its last step,
a one-step command was performed, or an illegal word was disposed of (or because reset has come, where STATUS shows its
reset value, R32, R240); and it stays true until a command is accepted. -/
def Obligations.HostDoneMeansCompleted : Prop :=
  (∀ s t : State, Inv s → live s → step s = .next t → hostDone s = false → hostDone t = true →
    (∃ i, s.seq.owner = .host ∧ decode s.seq.op = .ok i ∧ s.seq.step.toNat + 1 = stepsOf i) ∨
    (s.seq.owner = .none ∧ arbitrate s = .host ∧
      (legalWord s.intake.cmdSlot = false ∨ ∃ i, decode s.intake.cmdSlot = .ok i ∧ stepsOf i = 1)) ∨
    t.env.pins.rstN = false) ∧
  ∀ s t : State, Inv s → live s → step s = .next t → hostDone s = true → s.env.pins.cmdValid = false →
    hostDone t = true

/-- R241: without reset and EXT requests, the 300 edges after reset convert the four channels in order, channel c at the
edges 75c+1 to 75c+75; `RESULT` and the ring stay as reset left them. -/
def Obligations.InitConvertsTheFourChannels : Prop :=
  ∀ (c : Config) (e : Env), c.legal = true → calm 300 (.resetWith c e) →
    ∃ t, runEdges 300 (.resetWith c e) = .next t ∧ t.seq.owner = .none ∧ t.seq.initCnt = 4 ∧ t.analog.result = 0 ∧
      t.deb = .reset c ∧ t.intake.err = false ∧
      ∀ ch : Fin 4,
        (∀ j, j < 8 →
          (t.analog.hist.get ch).getLsbD (7 - j) =
            (levelsAt (comingLevels (.resetWith c e)) (75 * ch.val + 50 + 3 * j + 2)).sdi) ∧
        (∀ j, 5 ≤ j → j < 8 →
          (t.analog.hist.get ch).getLsbD (15 - j) =
            (levelsAt (comingLevels (.resetWith c e)) (75 * ch.val + 26 + 3 * j + 2)).sdi)

/-- R252, R197: with INIT done and no reset or EXT request, a pending tick starts its KEYSAMPLE within 75 edges, and
within 27 when `ADC_GUARDED = false`. -/
def Obligations.PendingTickStartsInTime : Prop :=
  ∀ s : State, Inv s → s.seq.initCnt = 4 → s.intake.tickPend = true → s.seq.owner ≠ .ext →
    calm (if s.cfg.adcGuarded then 75 else 27) s →
    ∃ n t, 1 ≤ n ∧ n ≤ (if s.cfg.adcGuarded then 75 else 27) ∧ runEdges n s = .next t ∧ t.seq.owner = .tick ∧
      t.seq.op = 0x2000 ∧ t.seq.step = 1

/-! ### Ports and host registers -/

/-- R190: the output pins, from the registers of the present cycle and the EXT inputs. -/
def Obligations.LineMultiplexer : Prop :=
  ∀ s : State,
    let r := visible s
    (s.env.pins.rstN = true → r = s) ∧
    (outputs s).lines.sck = (if r.intake.extGnt then s.env.pins.extSck else r.pinr.sck) ∧
    (outputs s).lines.data = (if r.intake.extGnt then s.env.pins.extData else r.pinr.data) ∧
    (outputs s).lines.dataOe = (if r.intake.extGnt then true else r.pinr.oe) ∧
    (outputs s).lines.keyLdN = r.pinr.kld ∧ (outputs s).lines.ledLatch = r.pinr.llat ∧
    (outputs s).lines.adcCsN = r.pinr.cs ∧ (outputs s).lines.extGnt = r.intake.extGnt

/-- R31: the host register map, on the registers of the present cycle; `rd_data_o` is the register at `rd_addr_i`; a read
has no side effect: no next state depends on the address. -/
def Obligations.HostRegisterMap : Prop :=
  (∀ s : State,
    let r := visible s
    (s.env.pins.rstN = true → r = s) ∧ (outputs s).rdData = hostRead s s.env.pins.rdAddr ∧
    hostRead s 0x00 = statusWord r ∧ hostRead s 0x01 = r.analog.result ∧
    hostRead s 0x02 = r.deb.cur.setWidth 16 ∧ hostRead s 0x03 = r.deb.prev.setWidth 16 ∧
    hostRead s 0x04 = r.deb.down.setWidth 16 ∧ hostRead s 0x05 = r.deb.up.setWidth 16 ∧
    hostRead s 0x06 = r.deb.pos.setWidth 16 ∧
    ((s.cfg.legal = true → ((hostRead s 0x07).extractLsb' 0 8).toNat = s.cfg.nWin) ∧
      (hostRead s 0x07).getLsbD 8 = s.cfg.reorder ∧ (hostRead s 0x07).getLsbD 9 = s.cfg.adcGuarded ∧
      (hostRead s 0x07).extractLsb' 10 6 = 0) ∧
    (∀ c : Fin 4, hostRead s (BitVec.ofNat 8 (0x08 + c.val)) = (r.analog.hist.get c).setWidth 16) ∧
    hostRead s 0x0C = pinsWord r ∧
    (∀ a : HostAddr, 0x0C < a.toNat → a.toNat < 0x80 → hostRead s a = 0) ∧
    ∀ i, i < 128 →
      hostRead s (BitVec.ofNat 8 (0x80 + i)) = if i < s.cfg.nWin then (r.deb.ring.getD i 0).setWidth 16 else 0) ∧
  ∀ (s : State) (a : HostAddr), step (withLevels { s.env.pins with rdAddr := a } s) = step s

/-- R32: the fields of STATUS, bit by bit, and its value at reset. -/
def Obligations.StatusFields : Prop :=
  (∀ s : State,
    (statusWord s).getLsbD 0 = s.seq.owner.busy ∧ (statusWord s).getLsbD 1 = s.intake.cmdFull ∧
    (statusWord s).getLsbD 2 = s.intake.tickPend ∧ (statusWord s).getLsbD 3 = s.intake.extGnt ∧
    (statusWord s).getLsbD 4 = s.intake.err ∧ (statusWord s).getLsbD 5 = decide (s.seq.initCnt.toNat < 4) ∧
    (statusWord s).extractLsb' 6 3 = s.seq.owner.code ∧
    (statusWord s).getLsbD 9 = (!s.cfg.adcGuarded && s.susp.valid) ∧ (statusWord s).extractLsb' 10 6 = 0) ∧
  ∀ (c : Config) (e : Env), statusWord (.resetWith c e) = 0x0020

/-- R33: the fields of PINS, bit by bit: the levels of the pins in the present cycle. -/
def Obligations.PinsFields : Prop :=
  ∀ s : State,
    (hostRead s 0x0C).getLsbD 0 = (outputs s).lines.sck ∧ (hostRead s 0x0C).getLsbD 1 = (outputs s).lines.data ∧
    (hostRead s 0x0C).getLsbD 2 = (outputs s).lines.dataOe ∧ (hostRead s 0x0C).getLsbD 3 = s.env.pins.dataI ∧
    (hostRead s 0x0C).getLsbD 4 = s.env.pins.sdi ∧ (hostRead s 0x0C).getLsbD 5 = (outputs s).lines.keyLdN ∧
    (hostRead s 0x0C).getLsbD 6 = (outputs s).lines.ledLatch ∧
    (hostRead s 0x0C).getLsbD 7 = (outputs s).lines.adcCsN ∧
    (hostRead s 0x0C).getLsbD 8 = (outputs s).lines.extGnt ∧ (hostRead s 0x0C).getLsbD 9 = s.env.pins.rotate ∧
    (hostRead s 0x0C).extractLsb' 10 6 = 0

/-! ### The debounce history, one edge -/

/-- R121, R124, R240, R253 as an invariant of one step: where the debounce registers are those of a history, the next
state's are those of the history with the edge's own event added, or of the empty one at a reset edge. -/
def Obligations.StepExtendsTheDebounceHistory : Prop :=
  ∀ (s t : State) (h : List DebEvent), Inv s → s.deb = debAfter s.cfg h → step s = .next t →
    t.deb = debAfter t.cfg (if s.env.pins.rstN then h ++ debEventsOf s else [])

/-! ### Programs -/

/-- R76, R107: the pseudo-lines encode to no word; a TICK is one cycle with `sample_tick_i = 1`; a WAIT reads STATUS in the
present cycle and stays until that word shows `CMD_FULL = 0`, `OWNER ≠ HOST` and `SUSP = 0`, and then the host is at the
next line. Every port the line does not name keeps its level. -/
def Obligations.PseudoLinesTickAndWait : Prop :=
  (assembleLine .tick = none ∧ assembleLine .wait = none) ∧
  (∀ (s : State) (ls : List AsmLine),
    programCycle (.tick :: ls) s = some (withLevels { s.env.pins with sampleTick := true } s, ls)) ∧
  ∀ (s : State) (ls : List AsmLine),
    let polling := withLevels { s.env.pins with rdAddr := 0x00 } s
    let status := statusWord (visible s)
    (outputs polling).rdData = status ∧
    (status.getLsbD 1 = false ∧ status.extractLsb' 6 3 ≠ 3 ∧ status.getLsbD 9 = false →
      programCycle (.wait :: ls) s = programCycle ls polling) ∧
    (status.getLsbD 1 = true ∨ status.extractLsb' 6 3 = 3 ∨ status.getLsbD 9 = true →
      programCycle (.wait :: ls) s = some (polling, .wait :: ls))

/-- R30, R75: a command line offers its word, with the other ports as they are, until a cycle with `cmd_ready_o = 1`; a line
that is not well-formed is not offered. -/
def Obligations.CommandLinesAreOfferedUntilAccepted : Prop :=
  (∀ (s : State) (ls : List AsmLine) (m : Mnemonic) (v : Option Nat) (i : Instr),
    assembleLine (.command m v) = some i →
      programCycle (.command m v :: ls) s =
        some (withLevels { s.env.pins with cmdValid := true, cmdWord := encode i } s,
          if s.env.pins.rstN && !s.intake.cmdFull then ls else .command m v :: ls)) ∧
  ∀ (s : State) (ls : List AsmLine) (m : Mnemonic) (v : Option Nat),
    (AsmLine.command m v).wf = false → programCycle (.command m v :: ls) s = none
end

