-- ==== Sys2Proof/Laws/State.lean ====
section
/-! SUPPORT. One lemma per field per update of State, true by rfl: no later proof unfolds a record update. -/

namespace Sys2Proof.Machine.State

section
variable (s : State) (v : Owner)
@[simp] theorem setOwner_cfg : (s.setOwner v).cfg = s.cfg := rfl
@[simp] theorem setOwner_deb : (s.setOwner v).deb = s.deb := rfl
@[simp] theorem setOwner_intake : (s.setOwner v).intake = s.intake := rfl
@[simp] theorem setOwner_susp : (s.setOwner v).susp = s.susp := rfl
@[simp] theorem setOwner_analog : (s.setOwner v).analog = s.analog := rfl
@[simp] theorem setOwner_pinr : (s.setOwner v).pinr = s.pinr := rfl
@[simp] theorem setOwner_env : (s.setOwner v).env = s.env := rfl
@[simp] theorem setOwner_seq_owner : (s.setOwner v).seq.owner = v := rfl
@[simp] theorem setOwner_seq_op : (s.setOwner v).seq.op = s.seq.op := rfl
@[simp] theorem setOwner_seq_step : (s.setOwner v).seq.step = s.seq.step := rfl
@[simp] theorem setOwner_seq_acc : (s.setOwner v).seq.acc = s.seq.acc := rfl
@[simp] theorem setOwner_seq_xout : (s.setOwner v).seq.xout = s.seq.xout := rfl
@[simp] theorem setOwner_seq_r2 : (s.setOwner v).seq.r2 = s.seq.r2 := rfl
@[simp] theorem setOwner_seq_initCnt : (s.setOwner v).seq.initCnt = s.seq.initCnt := rfl
end

section
variable (s : State) (v : Word)
@[simp] theorem setOp_cfg : (s.setOp v).cfg = s.cfg := rfl
@[simp] theorem setOp_deb : (s.setOp v).deb = s.deb := rfl
@[simp] theorem setOp_intake : (s.setOp v).intake = s.intake := rfl
@[simp] theorem setOp_susp : (s.setOp v).susp = s.susp := rfl
@[simp] theorem setOp_analog : (s.setOp v).analog = s.analog := rfl
@[simp] theorem setOp_pinr : (s.setOp v).pinr = s.pinr := rfl
@[simp] theorem setOp_env : (s.setOp v).env = s.env := rfl
@[simp] theorem setOp_seq_owner : (s.setOp v).seq.owner = s.seq.owner := rfl
@[simp] theorem setOp_seq_op : (s.setOp v).seq.op = v := rfl
@[simp] theorem setOp_seq_step : (s.setOp v).seq.step = s.seq.step := rfl
@[simp] theorem setOp_seq_acc : (s.setOp v).seq.acc = s.seq.acc := rfl
@[simp] theorem setOp_seq_xout : (s.setOp v).seq.xout = s.seq.xout := rfl
@[simp] theorem setOp_seq_r2 : (s.setOp v).seq.r2 = s.seq.r2 := rfl
@[simp] theorem setOp_seq_initCnt : (s.setOp v).seq.initCnt = s.seq.initCnt := rfl
end

section
variable (s : State) (v : BitVec 7)
@[simp] theorem setStep_cfg : (s.setStep v).cfg = s.cfg := rfl
@[simp] theorem setStep_deb : (s.setStep v).deb = s.deb := rfl
@[simp] theorem setStep_intake : (s.setStep v).intake = s.intake := rfl
@[simp] theorem setStep_susp : (s.setStep v).susp = s.susp := rfl
@[simp] theorem setStep_analog : (s.setStep v).analog = s.analog := rfl
@[simp] theorem setStep_pinr : (s.setStep v).pinr = s.pinr := rfl
@[simp] theorem setStep_env : (s.setStep v).env = s.env := rfl
@[simp] theorem setStep_seq_owner : (s.setStep v).seq.owner = s.seq.owner := rfl
@[simp] theorem setStep_seq_op : (s.setStep v).seq.op = s.seq.op := rfl
@[simp] theorem setStep_seq_step : (s.setStep v).seq.step = v := rfl
@[simp] theorem setStep_seq_acc : (s.setStep v).seq.acc = s.seq.acc := rfl
@[simp] theorem setStep_seq_xout : (s.setStep v).seq.xout = s.seq.xout := rfl
@[simp] theorem setStep_seq_r2 : (s.setStep v).seq.r2 = s.seq.r2 := rfl
@[simp] theorem setStep_seq_initCnt : (s.setStep v).seq.initCnt = s.seq.initCnt := rfl
end

section
variable (s : State) (v : Byte)
@[simp] theorem setAcc_cfg : (s.setAcc v).cfg = s.cfg := rfl
@[simp] theorem setAcc_deb : (s.setAcc v).deb = s.deb := rfl
@[simp] theorem setAcc_intake : (s.setAcc v).intake = s.intake := rfl
@[simp] theorem setAcc_susp : (s.setAcc v).susp = s.susp := rfl
@[simp] theorem setAcc_analog : (s.setAcc v).analog = s.analog := rfl
@[simp] theorem setAcc_pinr : (s.setAcc v).pinr = s.pinr := rfl
@[simp] theorem setAcc_env : (s.setAcc v).env = s.env := rfl
@[simp] theorem setAcc_seq_owner : (s.setAcc v).seq.owner = s.seq.owner := rfl
@[simp] theorem setAcc_seq_op : (s.setAcc v).seq.op = s.seq.op := rfl
@[simp] theorem setAcc_seq_step : (s.setAcc v).seq.step = s.seq.step := rfl
@[simp] theorem setAcc_seq_acc : (s.setAcc v).seq.acc = v := rfl
@[simp] theorem setAcc_seq_xout : (s.setAcc v).seq.xout = s.seq.xout := rfl
@[simp] theorem setAcc_seq_r2 : (s.setAcc v).seq.r2 = s.seq.r2 := rfl
@[simp] theorem setAcc_seq_initCnt : (s.setAcc v).seq.initCnt = s.seq.initCnt := rfl
end

section
variable (s : State) (v : Byte)
@[simp] theorem setXout_cfg : (s.setXout v).cfg = s.cfg := rfl
@[simp] theorem setXout_deb : (s.setXout v).deb = s.deb := rfl
@[simp] theorem setXout_intake : (s.setXout v).intake = s.intake := rfl
@[simp] theorem setXout_susp : (s.setXout v).susp = s.susp := rfl
@[simp] theorem setXout_analog : (s.setXout v).analog = s.analog := rfl
@[simp] theorem setXout_pinr : (s.setXout v).pinr = s.pinr := rfl
@[simp] theorem setXout_env : (s.setXout v).env = s.env := rfl
@[simp] theorem setXout_seq_owner : (s.setXout v).seq.owner = s.seq.owner := rfl
@[simp] theorem setXout_seq_op : (s.setXout v).seq.op = s.seq.op := rfl
@[simp] theorem setXout_seq_step : (s.setXout v).seq.step = s.seq.step := rfl
@[simp] theorem setXout_seq_acc : (s.setXout v).seq.acc = s.seq.acc := rfl
@[simp] theorem setXout_seq_xout : (s.setXout v).seq.xout = v := rfl
@[simp] theorem setXout_seq_r2 : (s.setXout v).seq.r2 = s.seq.r2 := rfl
@[simp] theorem setXout_seq_initCnt : (s.setXout v).seq.initCnt = s.seq.initCnt := rfl
end

section
variable (s : State) (v : Byte)
@[simp] theorem setR2_cfg : (s.setR2 v).cfg = s.cfg := rfl
@[simp] theorem setR2_deb : (s.setR2 v).deb = s.deb := rfl
@[simp] theorem setR2_intake : (s.setR2 v).intake = s.intake := rfl
@[simp] theorem setR2_susp : (s.setR2 v).susp = s.susp := rfl
@[simp] theorem setR2_analog : (s.setR2 v).analog = s.analog := rfl
@[simp] theorem setR2_pinr : (s.setR2 v).pinr = s.pinr := rfl
@[simp] theorem setR2_env : (s.setR2 v).env = s.env := rfl
@[simp] theorem setR2_seq_owner : (s.setR2 v).seq.owner = s.seq.owner := rfl
@[simp] theorem setR2_seq_op : (s.setR2 v).seq.op = s.seq.op := rfl
@[simp] theorem setR2_seq_step : (s.setR2 v).seq.step = s.seq.step := rfl
@[simp] theorem setR2_seq_acc : (s.setR2 v).seq.acc = s.seq.acc := rfl
@[simp] theorem setR2_seq_xout : (s.setR2 v).seq.xout = s.seq.xout := rfl
@[simp] theorem setR2_seq_r2 : (s.setR2 v).seq.r2 = v := rfl
@[simp] theorem setR2_seq_initCnt : (s.setR2 v).seq.initCnt = s.seq.initCnt := rfl
end

section
variable (s : State) (v : BitVec 3)
@[simp] theorem setInitCnt_cfg : (s.setInitCnt v).cfg = s.cfg := rfl
@[simp] theorem setInitCnt_deb : (s.setInitCnt v).deb = s.deb := rfl
@[simp] theorem setInitCnt_intake : (s.setInitCnt v).intake = s.intake := rfl
@[simp] theorem setInitCnt_susp : (s.setInitCnt v).susp = s.susp := rfl
@[simp] theorem setInitCnt_analog : (s.setInitCnt v).analog = s.analog := rfl
@[simp] theorem setInitCnt_pinr : (s.setInitCnt v).pinr = s.pinr := rfl
@[simp] theorem setInitCnt_env : (s.setInitCnt v).env = s.env := rfl
@[simp] theorem setInitCnt_seq_owner : (s.setInitCnt v).seq.owner = s.seq.owner := rfl
@[simp] theorem setInitCnt_seq_op : (s.setInitCnt v).seq.op = s.seq.op := rfl
@[simp] theorem setInitCnt_seq_step : (s.setInitCnt v).seq.step = s.seq.step := rfl
@[simp] theorem setInitCnt_seq_acc : (s.setInitCnt v).seq.acc = s.seq.acc := rfl
@[simp] theorem setInitCnt_seq_xout : (s.setInitCnt v).seq.xout = s.seq.xout := rfl
@[simp] theorem setInitCnt_seq_r2 : (s.setInitCnt v).seq.r2 = s.seq.r2 := rfl
@[simp] theorem setInitCnt_seq_initCnt : (s.setInitCnt v).seq.initCnt = v := rfl
end

section
variable (s : State) (v : Word)
@[simp] theorem setCmdSlot_cfg : (s.setCmdSlot v).cfg = s.cfg := rfl
@[simp] theorem setCmdSlot_deb : (s.setCmdSlot v).deb = s.deb := rfl
@[simp] theorem setCmdSlot_seq : (s.setCmdSlot v).seq = s.seq := rfl
@[simp] theorem setCmdSlot_susp : (s.setCmdSlot v).susp = s.susp := rfl
@[simp] theorem setCmdSlot_analog : (s.setCmdSlot v).analog = s.analog := rfl
@[simp] theorem setCmdSlot_pinr : (s.setCmdSlot v).pinr = s.pinr := rfl
@[simp] theorem setCmdSlot_env : (s.setCmdSlot v).env = s.env := rfl
@[simp] theorem setCmdSlot_intake_cmdSlot : (s.setCmdSlot v).intake.cmdSlot = v := rfl
@[simp] theorem setCmdSlot_intake_cmdFull : (s.setCmdSlot v).intake.cmdFull = s.intake.cmdFull := rfl
@[simp] theorem setCmdSlot_intake_tickPend : (s.setCmdSlot v).intake.tickPend = s.intake.tickPend := rfl
@[simp] theorem setCmdSlot_intake_err : (s.setCmdSlot v).intake.err = s.intake.err := rfl
@[simp] theorem setCmdSlot_intake_extGnt : (s.setCmdSlot v).intake.extGnt = s.intake.extGnt := rfl
end

section
variable (s : State) (v : Bool)
@[simp] theorem setCmdFull_cfg : (s.setCmdFull v).cfg = s.cfg := rfl
@[simp] theorem setCmdFull_deb : (s.setCmdFull v).deb = s.deb := rfl
@[simp] theorem setCmdFull_seq : (s.setCmdFull v).seq = s.seq := rfl
@[simp] theorem setCmdFull_susp : (s.setCmdFull v).susp = s.susp := rfl
@[simp] theorem setCmdFull_analog : (s.setCmdFull v).analog = s.analog := rfl
@[simp] theorem setCmdFull_pinr : (s.setCmdFull v).pinr = s.pinr := rfl
@[simp] theorem setCmdFull_env : (s.setCmdFull v).env = s.env := rfl
@[simp] theorem setCmdFull_intake_cmdSlot : (s.setCmdFull v).intake.cmdSlot = s.intake.cmdSlot := rfl
@[simp] theorem setCmdFull_intake_cmdFull : (s.setCmdFull v).intake.cmdFull = v := rfl
@[simp] theorem setCmdFull_intake_tickPend : (s.setCmdFull v).intake.tickPend = s.intake.tickPend := rfl
@[simp] theorem setCmdFull_intake_err : (s.setCmdFull v).intake.err = s.intake.err := rfl
@[simp] theorem setCmdFull_intake_extGnt : (s.setCmdFull v).intake.extGnt = s.intake.extGnt := rfl
end

section
variable (s : State) (v : Bool)
@[simp] theorem setTickPend_cfg : (s.setTickPend v).cfg = s.cfg := rfl
@[simp] theorem setTickPend_deb : (s.setTickPend v).deb = s.deb := rfl
@[simp] theorem setTickPend_seq : (s.setTickPend v).seq = s.seq := rfl
@[simp] theorem setTickPend_susp : (s.setTickPend v).susp = s.susp := rfl
@[simp] theorem setTickPend_analog : (s.setTickPend v).analog = s.analog := rfl
@[simp] theorem setTickPend_pinr : (s.setTickPend v).pinr = s.pinr := rfl
@[simp] theorem setTickPend_env : (s.setTickPend v).env = s.env := rfl
@[simp] theorem setTickPend_intake_cmdSlot : (s.setTickPend v).intake.cmdSlot = s.intake.cmdSlot := rfl
@[simp] theorem setTickPend_intake_cmdFull : (s.setTickPend v).intake.cmdFull = s.intake.cmdFull := rfl
@[simp] theorem setTickPend_intake_tickPend : (s.setTickPend v).intake.tickPend = v := rfl
@[simp] theorem setTickPend_intake_err : (s.setTickPend v).intake.err = s.intake.err := rfl
@[simp] theorem setTickPend_intake_extGnt : (s.setTickPend v).intake.extGnt = s.intake.extGnt := rfl
end

section
variable (s : State) (v : Bool)
@[simp] theorem setErr_cfg : (s.setErr v).cfg = s.cfg := rfl
@[simp] theorem setErr_deb : (s.setErr v).deb = s.deb := rfl
@[simp] theorem setErr_seq : (s.setErr v).seq = s.seq := rfl
@[simp] theorem setErr_susp : (s.setErr v).susp = s.susp := rfl
@[simp] theorem setErr_analog : (s.setErr v).analog = s.analog := rfl
@[simp] theorem setErr_pinr : (s.setErr v).pinr = s.pinr := rfl
@[simp] theorem setErr_env : (s.setErr v).env = s.env := rfl
@[simp] theorem setErr_intake_cmdSlot : (s.setErr v).intake.cmdSlot = s.intake.cmdSlot := rfl
@[simp] theorem setErr_intake_cmdFull : (s.setErr v).intake.cmdFull = s.intake.cmdFull := rfl
@[simp] theorem setErr_intake_tickPend : (s.setErr v).intake.tickPend = s.intake.tickPend := rfl
@[simp] theorem setErr_intake_err : (s.setErr v).intake.err = v := rfl
@[simp] theorem setErr_intake_extGnt : (s.setErr v).intake.extGnt = s.intake.extGnt := rfl
end

section
variable (s : State) (v : Bool)
@[simp] theorem setExtGnt_cfg : (s.setExtGnt v).cfg = s.cfg := rfl
@[simp] theorem setExtGnt_deb : (s.setExtGnt v).deb = s.deb := rfl
@[simp] theorem setExtGnt_seq : (s.setExtGnt v).seq = s.seq := rfl
@[simp] theorem setExtGnt_susp : (s.setExtGnt v).susp = s.susp := rfl
@[simp] theorem setExtGnt_analog : (s.setExtGnt v).analog = s.analog := rfl
@[simp] theorem setExtGnt_pinr : (s.setExtGnt v).pinr = s.pinr := rfl
@[simp] theorem setExtGnt_env : (s.setExtGnt v).env = s.env := rfl
@[simp] theorem setExtGnt_intake_cmdSlot : (s.setExtGnt v).intake.cmdSlot = s.intake.cmdSlot := rfl
@[simp] theorem setExtGnt_intake_cmdFull : (s.setExtGnt v).intake.cmdFull = s.intake.cmdFull := rfl
@[simp] theorem setExtGnt_intake_tickPend : (s.setExtGnt v).intake.tickPend = s.intake.tickPend := rfl
@[simp] theorem setExtGnt_intake_err : (s.setExtGnt v).intake.err = s.intake.err := rfl
@[simp] theorem setExtGnt_intake_extGnt : (s.setExtGnt v).intake.extGnt = v := rfl
end

section
variable (s : State) (v : Bool)
@[simp] theorem setSck_cfg : (s.setSck v).cfg = s.cfg := rfl
@[simp] theorem setSck_deb : (s.setSck v).deb = s.deb := rfl
@[simp] theorem setSck_seq : (s.setSck v).seq = s.seq := rfl
@[simp] theorem setSck_intake : (s.setSck v).intake = s.intake := rfl
@[simp] theorem setSck_susp : (s.setSck v).susp = s.susp := rfl
@[simp] theorem setSck_analog : (s.setSck v).analog = s.analog := rfl
@[simp] theorem setSck_env : (s.setSck v).env = s.env := rfl
@[simp] theorem setSck_pinr_sck : (s.setSck v).pinr.sck = v := rfl
@[simp] theorem setSck_pinr_data : (s.setSck v).pinr.data = s.pinr.data := rfl
@[simp] theorem setSck_pinr_oe : (s.setSck v).pinr.oe = s.pinr.oe := rfl
@[simp] theorem setSck_pinr_kld : (s.setSck v).pinr.kld = s.pinr.kld := rfl
@[simp] theorem setSck_pinr_llat : (s.setSck v).pinr.llat = s.pinr.llat := rfl
@[simp] theorem setSck_pinr_cs : (s.setSck v).pinr.cs = s.pinr.cs := rfl
end

section
variable (s : State) (v : Bool)
@[simp] theorem setData_cfg : (s.setData v).cfg = s.cfg := rfl
@[simp] theorem setData_deb : (s.setData v).deb = s.deb := rfl
@[simp] theorem setData_seq : (s.setData v).seq = s.seq := rfl
@[simp] theorem setData_intake : (s.setData v).intake = s.intake := rfl
@[simp] theorem setData_susp : (s.setData v).susp = s.susp := rfl
@[simp] theorem setData_analog : (s.setData v).analog = s.analog := rfl
@[simp] theorem setData_env : (s.setData v).env = s.env := rfl
@[simp] theorem setData_pinr_sck : (s.setData v).pinr.sck = s.pinr.sck := rfl
@[simp] theorem setData_pinr_data : (s.setData v).pinr.data = v := rfl
@[simp] theorem setData_pinr_oe : (s.setData v).pinr.oe = s.pinr.oe := rfl
@[simp] theorem setData_pinr_kld : (s.setData v).pinr.kld = s.pinr.kld := rfl
@[simp] theorem setData_pinr_llat : (s.setData v).pinr.llat = s.pinr.llat := rfl
@[simp] theorem setData_pinr_cs : (s.setData v).pinr.cs = s.pinr.cs := rfl
end

section
variable (s : State) (v : Bool)
@[simp] theorem setOe_cfg : (s.setOe v).cfg = s.cfg := rfl
@[simp] theorem setOe_deb : (s.setOe v).deb = s.deb := rfl
@[simp] theorem setOe_seq : (s.setOe v).seq = s.seq := rfl
@[simp] theorem setOe_intake : (s.setOe v).intake = s.intake := rfl
@[simp] theorem setOe_susp : (s.setOe v).susp = s.susp := rfl
@[simp] theorem setOe_analog : (s.setOe v).analog = s.analog := rfl
@[simp] theorem setOe_env : (s.setOe v).env = s.env := rfl
@[simp] theorem setOe_pinr_sck : (s.setOe v).pinr.sck = s.pinr.sck := rfl
@[simp] theorem setOe_pinr_data : (s.setOe v).pinr.data = s.pinr.data := rfl
@[simp] theorem setOe_pinr_oe : (s.setOe v).pinr.oe = v := rfl
@[simp] theorem setOe_pinr_kld : (s.setOe v).pinr.kld = s.pinr.kld := rfl
@[simp] theorem setOe_pinr_llat : (s.setOe v).pinr.llat = s.pinr.llat := rfl
@[simp] theorem setOe_pinr_cs : (s.setOe v).pinr.cs = s.pinr.cs := rfl
end

section
variable (s : State) (v : Bool)
@[simp] theorem setKld_cfg : (s.setKld v).cfg = s.cfg := rfl
@[simp] theorem setKld_deb : (s.setKld v).deb = s.deb := rfl
@[simp] theorem setKld_seq : (s.setKld v).seq = s.seq := rfl
@[simp] theorem setKld_intake : (s.setKld v).intake = s.intake := rfl
@[simp] theorem setKld_susp : (s.setKld v).susp = s.susp := rfl
@[simp] theorem setKld_analog : (s.setKld v).analog = s.analog := rfl
@[simp] theorem setKld_env : (s.setKld v).env = s.env := rfl
@[simp] theorem setKld_pinr_sck : (s.setKld v).pinr.sck = s.pinr.sck := rfl
@[simp] theorem setKld_pinr_data : (s.setKld v).pinr.data = s.pinr.data := rfl
@[simp] theorem setKld_pinr_oe : (s.setKld v).pinr.oe = s.pinr.oe := rfl
@[simp] theorem setKld_pinr_kld : (s.setKld v).pinr.kld = v := rfl
@[simp] theorem setKld_pinr_llat : (s.setKld v).pinr.llat = s.pinr.llat := rfl
@[simp] theorem setKld_pinr_cs : (s.setKld v).pinr.cs = s.pinr.cs := rfl
end

section
variable (s : State) (v : Bool)
@[simp] theorem setLlat_cfg : (s.setLlat v).cfg = s.cfg := rfl
@[simp] theorem setLlat_deb : (s.setLlat v).deb = s.deb := rfl
@[simp] theorem setLlat_seq : (s.setLlat v).seq = s.seq := rfl
@[simp] theorem setLlat_intake : (s.setLlat v).intake = s.intake := rfl
@[simp] theorem setLlat_susp : (s.setLlat v).susp = s.susp := rfl
@[simp] theorem setLlat_analog : (s.setLlat v).analog = s.analog := rfl
@[simp] theorem setLlat_env : (s.setLlat v).env = s.env := rfl
@[simp] theorem setLlat_pinr_sck : (s.setLlat v).pinr.sck = s.pinr.sck := rfl
@[simp] theorem setLlat_pinr_data : (s.setLlat v).pinr.data = s.pinr.data := rfl
@[simp] theorem setLlat_pinr_oe : (s.setLlat v).pinr.oe = s.pinr.oe := rfl
@[simp] theorem setLlat_pinr_kld : (s.setLlat v).pinr.kld = s.pinr.kld := rfl
@[simp] theorem setLlat_pinr_llat : (s.setLlat v).pinr.llat = v := rfl
@[simp] theorem setLlat_pinr_cs : (s.setLlat v).pinr.cs = s.pinr.cs := rfl
end

section
variable (s : State) (v : Bool)
@[simp] theorem setCs_cfg : (s.setCs v).cfg = s.cfg := rfl
@[simp] theorem setCs_deb : (s.setCs v).deb = s.deb := rfl
@[simp] theorem setCs_seq : (s.setCs v).seq = s.seq := rfl
@[simp] theorem setCs_intake : (s.setCs v).intake = s.intake := rfl
@[simp] theorem setCs_susp : (s.setCs v).susp = s.susp := rfl
@[simp] theorem setCs_analog : (s.setCs v).analog = s.analog := rfl
@[simp] theorem setCs_env : (s.setCs v).env = s.env := rfl
@[simp] theorem setCs_pinr_sck : (s.setCs v).pinr.sck = s.pinr.sck := rfl
@[simp] theorem setCs_pinr_data : (s.setCs v).pinr.data = s.pinr.data := rfl
@[simp] theorem setCs_pinr_oe : (s.setCs v).pinr.oe = s.pinr.oe := rfl
@[simp] theorem setCs_pinr_kld : (s.setCs v).pinr.kld = s.pinr.kld := rfl
@[simp] theorem setCs_pinr_llat : (s.setCs v).pinr.llat = s.pinr.llat := rfl
@[simp] theorem setCs_pinr_cs : (s.setCs v).pinr.cs = v := rfl
end

section
variable (s : State) (v : Word)
@[simp] theorem setResult_cfg : (s.setResult v).cfg = s.cfg := rfl
@[simp] theorem setResult_deb : (s.setResult v).deb = s.deb := rfl
@[simp] theorem setResult_seq : (s.setResult v).seq = s.seq := rfl
@[simp] theorem setResult_intake : (s.setResult v).intake = s.intake := rfl
@[simp] theorem setResult_susp : (s.setResult v).susp = s.susp := rfl
@[simp] theorem setResult_pinr : (s.setResult v).pinr = s.pinr := rfl
@[simp] theorem setResult_env : (s.setResult v).env = s.env := rfl
@[simp] theorem setResult_analog_hist : (s.setResult v).analog.hist = s.analog.hist := rfl
@[simp] theorem setResult_analog_result : (s.setResult v).analog.result = v := rfl
end

section
variable (s : State) (v : Vector AdcValue 4)
@[simp] theorem setHist_cfg : (s.setHist v).cfg = s.cfg := rfl
@[simp] theorem setHist_deb : (s.setHist v).deb = s.deb := rfl
@[simp] theorem setHist_seq : (s.setHist v).seq = s.seq := rfl
@[simp] theorem setHist_intake : (s.setHist v).intake = s.intake := rfl
@[simp] theorem setHist_susp : (s.setHist v).susp = s.susp := rfl
@[simp] theorem setHist_pinr : (s.setHist v).pinr = s.pinr := rfl
@[simp] theorem setHist_env : (s.setHist v).env = s.env := rfl
@[simp] theorem setHist_analog_hist : (s.setHist v).analog.hist = v := rfl
@[simp] theorem setHist_analog_result : (s.setHist v).analog.result = s.analog.result := rfl
end

section
variable (s : State) (v : Bool)
@[simp] theorem setSuspValid_cfg : (s.setSuspValid v).cfg = s.cfg := rfl
@[simp] theorem setSuspValid_deb : (s.setSuspValid v).deb = s.deb := rfl
@[simp] theorem setSuspValid_seq : (s.setSuspValid v).seq = s.seq := rfl
@[simp] theorem setSuspValid_intake : (s.setSuspValid v).intake = s.intake := rfl
@[simp] theorem setSuspValid_analog : (s.setSuspValid v).analog = s.analog := rfl
@[simp] theorem setSuspValid_pinr : (s.setSuspValid v).pinr = s.pinr := rfl
@[simp] theorem setSuspValid_env : (s.setSuspValid v).env = s.env := rfl
@[simp] theorem setSuspValid_susp_valid : (s.setSuspValid v).susp.valid = v := rfl
@[simp] theorem setSuspValid_susp_owner : (s.setSuspValid v).susp.owner = s.susp.owner := rfl
@[simp] theorem setSuspValid_susp_op : (s.setSuspValid v).susp.op = s.susp.op := rfl
@[simp] theorem setSuspValid_susp_step : (s.setSuspValid v).susp.step = s.susp.step := rfl
@[simp] theorem setSuspValid_susp_acc : (s.setSuspValid v).susp.acc = s.susp.acc := rfl
@[simp] theorem setSuspValid_susp_r2 : (s.setSuspValid v).susp.r2 = s.susp.r2 := rfl
@[simp] theorem setSuspValid_susp_adcCorrupt : (s.setSuspValid v).susp.adcCorrupt = s.susp.adcCorrupt := rfl
end

section
variable (s : State) (v : Bool)
@[simp] theorem setCorrupt_cfg : (s.setCorrupt v).cfg = s.cfg := rfl
@[simp] theorem setCorrupt_deb : (s.setCorrupt v).deb = s.deb := rfl
@[simp] theorem setCorrupt_seq : (s.setCorrupt v).seq = s.seq := rfl
@[simp] theorem setCorrupt_intake : (s.setCorrupt v).intake = s.intake := rfl
@[simp] theorem setCorrupt_analog : (s.setCorrupt v).analog = s.analog := rfl
@[simp] theorem setCorrupt_pinr : (s.setCorrupt v).pinr = s.pinr := rfl
@[simp] theorem setCorrupt_env : (s.setCorrupt v).env = s.env := rfl
@[simp] theorem setCorrupt_susp_valid : (s.setCorrupt v).susp.valid = s.susp.valid := rfl
@[simp] theorem setCorrupt_susp_owner : (s.setCorrupt v).susp.owner = s.susp.owner := rfl
@[simp] theorem setCorrupt_susp_op : (s.setCorrupt v).susp.op = s.susp.op := rfl
@[simp] theorem setCorrupt_susp_step : (s.setCorrupt v).susp.step = s.susp.step := rfl
@[simp] theorem setCorrupt_susp_acc : (s.setCorrupt v).susp.acc = s.susp.acc := rfl
@[simp] theorem setCorrupt_susp_r2 : (s.setCorrupt v).susp.r2 = s.susp.r2 := rfl
@[simp] theorem setCorrupt_susp_adcCorrupt : (s.setCorrupt v).susp.adcCorrupt = v := rfl
end

section
variable (s : State) (v : Debounce)
@[simp] theorem setDeb_cfg : (s.setDeb v).cfg = s.cfg := rfl
@[simp] theorem setDeb_seq : (s.setDeb v).seq = s.seq := rfl
@[simp] theorem setDeb_intake : (s.setDeb v).intake = s.intake := rfl
@[simp] theorem setDeb_susp : (s.setDeb v).susp = s.susp := rfl
@[simp] theorem setDeb_analog : (s.setDeb v).analog = s.analog := rfl
@[simp] theorem setDeb_pinr : (s.setDeb v).pinr = s.pinr := rfl
@[simp] theorem setDeb_env : (s.setDeb v).env = s.env := rfl
@[simp] theorem setDeb_deb : (s.setDeb v).deb = v := rfl
end

section
variable (s : State) (v : Suspended)
@[simp] theorem setSusp_cfg : (s.setSusp v).cfg = s.cfg := rfl
@[simp] theorem setSusp_deb : (s.setSusp v).deb = s.deb := rfl
@[simp] theorem setSusp_seq : (s.setSusp v).seq = s.seq := rfl
@[simp] theorem setSusp_intake : (s.setSusp v).intake = s.intake := rfl
@[simp] theorem setSusp_analog : (s.setSusp v).analog = s.analog := rfl
@[simp] theorem setSusp_pinr : (s.setSusp v).pinr = s.pinr := rfl
@[simp] theorem setSusp_env : (s.setSusp v).env = s.env := rfl
@[simp] theorem setSusp_susp : (s.setSusp v).susp = v := rfl
end

section
variable (s : State) (v : Env)
@[simp] theorem setEnv_cfg : (s.setEnv v).cfg = s.cfg := rfl
@[simp] theorem setEnv_deb : (s.setEnv v).deb = s.deb := rfl
@[simp] theorem setEnv_seq : (s.setEnv v).seq = s.seq := rfl
@[simp] theorem setEnv_intake : (s.setEnv v).intake = s.intake := rfl
@[simp] theorem setEnv_susp : (s.setEnv v).susp = s.susp := rfl
@[simp] theorem setEnv_analog : (s.setEnv v).analog = s.analog := rfl
@[simp] theorem setEnv_pinr : (s.setEnv v).pinr = s.pinr := rfl
@[simp] theorem setEnv_env : (s.setEnv v).env = v := rfl
end

end Sys2Proof.Machine.State
end

