-- ==== Sys2Proof/Laws/Ops.lean ====
section
/-! SUPPORT. For each shared operation what it can do, said once: later proofs cite these and do not unfold the
operation. -/

namespace Sys2Proof.Machine

open Host (Outcome)

/-! ### Debounce engine -/

theorem foldAnd_cons (v : Byte) (ring : List Byte) : foldAnd (v :: ring) = v &&& foldAnd ring := rfl

/-- A bit of the fold is 1 iff it is 1 in every entry (R120). -/
theorem foldAnd_getLsbD (ring : List Byte) (i : Nat) (hi : i < 8) :
    (foldAnd ring).getLsbD i = ring.all fun v => v.getLsbD i := by
  induction ring with
  | nil =>
    have : i = 0 ∨ i = 1 ∨ i = 2 ∨ i = 3 ∨ i = 4 ∨ i = 5 ∨ i = 6 ∨ i = 7 := by omega
    rcases this with h | h | h | h | h | h | h | h <;> subst h <;> rfl
  | cons v ring ih => rw [foldAnd_cons, BitVec.getLsbD_and, ih, List.all_cons]

@[simp] theorem recordSample_ring (n : Nat) (raw : Byte) (d : Debounce) :
    (recordSample n raw d).ring = d.ring.set d.pos.toNat raw := rfl
@[simp] theorem recordSample_pos (n : Nat) (raw : Byte) (d : Debounce) :
    (recordSample n raw d).pos = BitVec.ofNat 7 ((d.pos.toNat + 1) % n) := rfl
@[simp] theorem recordSample_cur (n : Nat) (raw : Byte) (d : Debounce) : (recordSample n raw d).cur = d.cur := rfl
@[simp] theorem recordSample_prev (n : Nat) (raw : Byte) (d : Debounce) : (recordSample n raw d).prev = d.prev := rfl
@[simp] theorem recordSample_down (n : Nat) (raw : Byte) (d : Debounce) : (recordSample n raw d).down = d.down := rfl
@[simp] theorem recordSample_up (n : Nat) (raw : Byte) (d : Debounce) : (recordSample n raw d).up = d.up := rfl

/-- The record primitive keeps the number of entries and a position inside the ring (R24, R121). -/
theorem recordSample_wf (n : Nat) (raw : Byte) (d : Debounce) (h0 : 0 < n) (h1 : n ≤ 128)
    (hr : d.ring.length = n) :
    (recordSample n raw d).ring.length = n ∧ (recordSample n raw d).pos.toNat < n := by
  have hlt : (d.pos.toNat + 1) % n < n := Nat.mod_lt _ h0
  refine ⟨by simpa using hr, ?_⟩
  simp only [recordSample_pos, BitVec.toNat_ofNat]
  rw [Nat.mod_eq_of_lt (by omega)]
  exact hlt

@[simp] theorem updateEdges_ring (d : Debounce) : (updateEdges d).ring = d.ring := rfl
@[simp] theorem updateEdges_pos (d : Debounce) : (updateEdges d).pos = d.pos := rfl
@[simp] theorem updateEdges_cur (d : Debounce) : (updateEdges d).cur = foldAnd d.ring := rfl
@[simp] theorem updateEdges_prev (d : Debounce) : (updateEdges d).prev = foldAnd d.ring := rfl
@[simp] theorem updateEdges_down (d : Debounce) :
    (updateEdges d).down = (d.prev ^^^ foldAnd d.ring) &&& foldAnd d.ring := rfl
@[simp] theorem updateEdges_up (d : Debounce) : (updateEdges d).up = (d.prev ^^^ foldAnd d.ring) &&& d.prev := rfl

section
variable (raw : Byte) (s : State)
@[simp] theorem record_cfg : (record raw s).cfg = s.cfg := rfl
@[simp] theorem record_deb : (record raw s).deb = recordSample s.cfg.nWin raw s.deb := rfl
@[simp] theorem record_seq : (record raw s).seq = s.seq := rfl
@[simp] theorem record_intake : (record raw s).intake = s.intake := rfl
@[simp] theorem record_susp : (record raw s).susp = s.susp := rfl
@[simp] theorem record_analog : (record raw s).analog = s.analog := rfl
@[simp] theorem record_pinr : (record raw s).pinr = s.pinr := rfl
@[simp] theorem record_env : (record raw s).env = s.env := rfl
end

/-! ### Byte exchange -/

section
variable (b : Byte) (t : Nat) (s : State)
@[simp] theorem xchg_cfg : (xchg b t s).cfg = s.cfg := by unfold xchg; split_ifs <;> rfl
@[simp] theorem xchg_deb : (xchg b t s).deb = s.deb := by unfold xchg; split_ifs <;> rfl
@[simp] theorem xchg_intake : (xchg b t s).intake = s.intake := by unfold xchg; split_ifs <;> rfl
@[simp] theorem xchg_susp : (xchg b t s).susp = s.susp := by unfold xchg; split_ifs <;> rfl
@[simp] theorem xchg_analog : (xchg b t s).analog = s.analog := by unfold xchg; split_ifs <;> rfl
@[simp] theorem xchg_env : (xchg b t s).env = s.env := by unfold xchg; split_ifs <;> rfl
@[simp] theorem xchg_owner : (xchg b t s).seq.owner = s.seq.owner := by unfold xchg; split_ifs <;> rfl
@[simp] theorem xchg_op : (xchg b t s).seq.op = s.seq.op := by unfold xchg; split_ifs <;> rfl
@[simp] theorem xchg_step : (xchg b t s).seq.step = s.seq.step := by unfold xchg; split_ifs <;> rfl
@[simp] theorem xchg_xout : (xchg b t s).seq.xout = s.seq.xout := by unfold xchg; split_ifs <;> rfl
@[simp] theorem xchg_r2 : (xchg b t s).seq.r2 = s.seq.r2 := by unfold xchg; split_ifs <;> rfl
@[simp] theorem xchg_initCnt : (xchg b t s).seq.initCnt = s.seq.initCnt := by unfold xchg; split_ifs <;> rfl
/-- `XCHG` does not touch the latch and select lines (R140). -/
@[simp] theorem xchg_kld : (xchg b t s).pinr.kld = s.pinr.kld := by unfold xchg; split_ifs <;> rfl
@[simp] theorem xchg_llat : (xchg b t s).pinr.llat = s.pinr.llat := by unfold xchg; split_ifs <;> rfl
@[simp] theorem xchg_cs : (xchg b t s).pinr.cs = s.pinr.cs := by unfold xchg; split_ifs <;> rfl

/-- Step t of an exchange is one of the three actions of R140's table. -/
theorem xchg_cases :
    (t = 0 ∧ xchg b t s = ((s.setData (msbBit b 0)).setOe true).setAcc 0) ∨
    (t ≠ 0 ∧ t % 3 = 0 ∧ xchg b t s = s.setData (msbBit b (t / 3))) ∨
    (t % 3 = 1 ∧ xchg b t s = s.setSck true) ∨
    (t % 3 = 2 ∧ xchg b t s = (s.setAcc (received s)).setSck false) := by
  unfold xchg
  split_ifs with h0 h1 h2
  · exact .inl ⟨h1, rfl⟩
  · exact .inr (.inl ⟨h1, h0, rfl⟩)
  · exact .inr (.inr (.inl ⟨h2, rfl⟩))
  · exact .inr (.inr (.inr ⟨by omega, rfl⟩))
end

/-! ### Finishing and advancing -/

section
variable (s : State)
@[simp] theorem resume_cfg : (resume s).cfg = s.cfg := rfl
@[simp] theorem resume_deb : (resume s).deb = s.deb := rfl
@[simp] theorem resume_intake : (resume s).intake = s.intake := rfl
@[simp] theorem resume_analog : (resume s).analog = s.analog := rfl
@[simp] theorem resume_pinr : (resume s).pinr = s.pinr := rfl
@[simp] theorem resume_env : (resume s).env = s.env := rfl

/-- What finishing an operation can do (R104, R196). -/
theorem finish_cases :
    (s.seq.owner = .init ∧ finish s = ((s.setOwner .none).setStep 0).setInitCnt (s.seq.initCnt + 1)) ∨
    (s.seq.owner = .tick ∧ s.suspended = true ∧ finish s = resume ((s.setOwner .none).setStep 0)) ∨
    (s.seq.owner ≠ .init ∧ ¬(s.seq.owner = .tick ∧ s.suspended = true) ∧
      finish s = (s.setOwner .none).setStep 0) := by
  unfold finish
  cases h : s.seq.owner
  · exact .inr (.inr ⟨by simp, by simp, rfl⟩)
  · exact .inl ⟨rfl, rfl⟩
  · by_cases hs : s.suspended = true
    · exact .inr (.inl ⟨rfl, hs, by simp [hs]⟩)
    · exact .inr (.inr ⟨by simp, by simp [hs], by simp [hs]⟩)
  · exact .inr (.inr ⟨by simp, by simp, rfl⟩)
  · exact .inr (.inr ⟨by simp, by simp, rfl⟩)

@[simp] theorem finish_cfg : (finish s).cfg = s.cfg := by
  rcases finish_cases s with ⟨_, h⟩ | ⟨_, _, h⟩ | ⟨_, _, h⟩ <;> rw [h] <;> rfl
@[simp] theorem finish_deb : (finish s).deb = s.deb := by
  rcases finish_cases s with ⟨_, h⟩ | ⟨_, _, h⟩ | ⟨_, _, h⟩ <;> rw [h] <;> rfl
@[simp] theorem finish_intake : (finish s).intake = s.intake := by
  rcases finish_cases s with ⟨_, h⟩ | ⟨_, _, h⟩ | ⟨_, _, h⟩ <;> rw [h] <;> rfl
@[simp] theorem finish_analog : (finish s).analog = s.analog := by
  rcases finish_cases s with ⟨_, h⟩ | ⟨_, _, h⟩ | ⟨_, _, h⟩ <;> rw [h] <;> rfl
@[simp] theorem finish_pinr : (finish s).pinr = s.pinr := by
  rcases finish_cases s with ⟨_, h⟩ | ⟨_, _, h⟩ | ⟨_, _, h⟩ <;> rw [h] <;> rfl
@[simp] theorem finish_env : (finish s).env = s.env := by
  rcases finish_cases s with ⟨_, h⟩ | ⟨_, _, h⟩ | ⟨_, _, h⟩ <;> rw [h] <;> rfl

end

/-- An operation of the host ends with the sequencer idle (R104). -/
theorem finish_host {s : State} (h : s.seq.owner = .host) : finish s = (s.setOwner .none).setStep 0 := by
  rcases finish_cases s with ⟨ho, _⟩ | ⟨ho, _, _⟩ | ⟨_, _, hf⟩
  · rw [h] at ho; cases ho
  · rw [h] at ho; cases ho
  · exact hf

section
variable (n : Nat) (s : State)

/-- After a micro-step the operation finishes, or `STEP` goes up by 1 (R104). -/
theorem advance_cases :
    (s.seq.step.toNat + 1 = n ∧ advance n s = finish s) ∨
    (s.seq.step.toNat + 1 ≠ n ∧ advance n s = s.setStep (s.seq.step + 1)) := by
  unfold advance
  split_ifs with h
  · exact .inl ⟨h, rfl⟩
  · exact .inr ⟨h, rfl⟩

@[simp] theorem advance_cfg : (advance n s).cfg = s.cfg := by
  rcases advance_cases n s with ⟨_, h⟩ | ⟨_, h⟩ <;> simp [h]
@[simp] theorem advance_deb : (advance n s).deb = s.deb := by
  rcases advance_cases n s with ⟨_, h⟩ | ⟨_, h⟩ <;> simp [h]
@[simp] theorem advance_intake : (advance n s).intake = s.intake := by
  rcases advance_cases n s with ⟨_, h⟩ | ⟨_, h⟩ <;> simp [h]
@[simp] theorem advance_analog : (advance n s).analog = s.analog := by
  rcases advance_cases n s with ⟨_, h⟩ | ⟨_, h⟩ <;> simp [h]
@[simp] theorem advance_pinr : (advance n s).pinr = s.pinr := by
  rcases advance_cases n s with ⟨_, h⟩ | ⟨_, h⟩ <;> simp [h]
@[simp] theorem advance_env : (advance n s).env = s.env := by
  rcases advance_cases n s with ⟨_, h⟩ | ⟨_, h⟩ <;> simp [h]
end

/-- A micro-step that the operation has: it answers a next state (R104). -/
theorem runMicro_of_lt {n : Nat} {body : Nat → State → State} {s : State} (h : s.seq.step.toNat < n) :
    runMicro n body s = .next (advance n (body s.seq.step.toNat s)) := by
  unfold runMicro
  rw [if_pos h]

/-- A micro-step that the operation does not have: it stops (log 11). -/
theorem runMicro_of_le {n : Nat} {body : Nat → State → State} {s : State} (h : n ≤ s.seq.step.toNat) :
    runMicro n body s = .fault .strayStep := by
  unfold runMicro
  rw [if_neg (by omega)]

/-- What a micro-step that answers a next state did. -/
theorem runMicro_next {n : Nat} {body : Nat → State → State} {s t : State} (h : runMicro n body s = .next t) :
    s.seq.step.toNat < n ∧ t = advance n (body s.seq.step.toNat s) := by
  unfold runMicro at h
  split at h
  · rename_i hlt
    exact ⟨hlt, by injection h with h; exact h.symm⟩
  · cases h

/-- A micro-step is never refused. -/
theorem runMicro_not_refused {n : Nat} {body : Nat → State → State} {s : State} (r : Refusal) :
    runMicro n body s ≠ .refused r := by
  unfold runMicro
  split <;> simp

/-! ### Preemption -/

section
variable (s : State)
@[simp] theorem suspend_cfg : (suspend s).cfg = s.cfg := rfl
@[simp] theorem suspend_deb : (suspend s).deb = s.deb := rfl
@[simp] theorem suspend_seq : (suspend s).seq = s.seq := rfl
@[simp] theorem suspend_analog : (suspend s).analog = s.analog := rfl
@[simp] theorem suspend_pinr : (suspend s).pinr = s.pinr := rfl
@[simp] theorem suspend_env : (suspend s).env = s.env := rfl

/-- When the sequencer preempts (R195). -/
theorem preemptCondition_iff :
    preemptCondition s = true ↔
      s.cfg.adcGuarded = false ∧ s.seq.owner = .host ∧ opcOf s.seq.op = 0x6 ∧ s.suspended = false ∧
        s.intake.tickPend = true := by
  simp [preemptCondition, and_assoc]
end

/-! ### Arbitration -/

/-- The fixed priority EXT, INIT, TICK, HOST (R192). -/
theorem arbitrate_cases (s : State) :
    (arbitrate s = .ext ∧ s.env.pins.extReq = true) ∨
    (arbitrate s = .init ∧ s.env.pins.extReq = false ∧ s.seq.initCnt.toNat < 4) ∨
    (arbitrate s = .tick ∧ s.env.pins.extReq = false ∧ 4 ≤ s.seq.initCnt.toNat ∧ s.intake.tickPend = true) ∨
    (arbitrate s = .host ∧ s.env.pins.extReq = false ∧ 4 ≤ s.seq.initCnt.toNat ∧ s.intake.tickPend = false ∧
      s.intake.cmdFull = true) ∨
    (arbitrate s = .nothing ∧ s.env.pins.extReq = false ∧ 4 ≤ s.seq.initCnt.toNat ∧ s.intake.tickPend = false ∧
      s.intake.cmdFull = false) := by
  unfold arbitrate
  split_ifs with h1 h2 h3 h4 <;> simp_all

/-! ### The other events of an edge -/

section
variable (s t : State)

@[simp] theorem takeCommand_cfg : (takeCommand s t).cfg = t.cfg := by unfold takeCommand; split <;> rfl
@[simp] theorem takeCommand_deb : (takeCommand s t).deb = t.deb := by unfold takeCommand; split <;> rfl
@[simp] theorem takeCommand_seq : (takeCommand s t).seq = t.seq := by unfold takeCommand; split <;> rfl
@[simp] theorem takeCommand_susp : (takeCommand s t).susp = t.susp := by unfold takeCommand; split <;> rfl
@[simp] theorem takeCommand_analog : (takeCommand s t).analog = t.analog := by unfold takeCommand; split <;> rfl
@[simp] theorem takeCommand_pinr : (takeCommand s t).pinr = t.pinr := by unfold takeCommand; split <;> rfl
@[simp] theorem takeCommand_env : (takeCommand s t).env = t.env := by unfold takeCommand; split <;> rfl
@[simp] theorem takeCommand_tickPend : (takeCommand s t).intake.tickPend = t.intake.tickPend := by
  unfold takeCommand; split <;> rfl
@[simp] theorem takeCommand_err : (takeCommand s t).intake.err = t.intake.err := by unfold takeCommand; split <;> rfl
@[simp] theorem takeCommand_extGnt : (takeCommand s t).intake.extGnt = t.intake.extGnt := by
  unfold takeCommand; split <;> rfl

@[simp] theorem captureTick_cfg : (captureTick s t).cfg = t.cfg := by unfold captureTick; split <;> rfl
@[simp] theorem captureTick_deb : (captureTick s t).deb = t.deb := by unfold captureTick; split <;> rfl
@[simp] theorem captureTick_seq : (captureTick s t).seq = t.seq := by unfold captureTick; split <;> rfl
@[simp] theorem captureTick_susp : (captureTick s t).susp = t.susp := by unfold captureTick; split <;> rfl
@[simp] theorem captureTick_analog : (captureTick s t).analog = t.analog := by unfold captureTick; split <;> rfl
@[simp] theorem captureTick_pinr : (captureTick s t).pinr = t.pinr := by unfold captureTick; split <;> rfl
@[simp] theorem captureTick_env : (captureTick s t).env = t.env := by unfold captureTick; split <;> rfl
@[simp] theorem captureTick_cmdSlot : (captureTick s t).intake.cmdSlot = t.intake.cmdSlot := by
  unfold captureTick; split <;> rfl
@[simp] theorem captureTick_cmdFull : (captureTick s t).intake.cmdFull = t.intake.cmdFull := by
  unfold captureTick; split <;> rfl
@[simp] theorem captureTick_err : (captureTick s t).intake.err = t.intake.err := by unfold captureTick; split <;> rfl
@[simp] theorem captureTick_extGnt : (captureTick s t).intake.extGnt = t.intake.extGnt := by
  unfold captureTick; split <;> rfl

@[simp] theorem nextCycle_cfg : (nextCycle s).cfg = s.cfg := rfl
@[simp] theorem nextCycle_deb : (nextCycle s).deb = s.deb := rfl
@[simp] theorem nextCycle_seq : (nextCycle s).seq = s.seq := rfl
@[simp] theorem nextCycle_intake : (nextCycle s).intake = s.intake := rfl
@[simp] theorem nextCycle_susp : (nextCycle s).susp = s.susp := rfl
@[simp] theorem nextCycle_analog : (nextCycle s).analog = s.analog := rfl
@[simp] theorem nextCycle_pinr : (nextCycle s).pinr = s.pinr := rfl
@[simp] theorem nextCycle_env : (nextCycle s).env = nextEnv s.env := rfl

@[simp] theorem afterEdge_cfg : (afterEdge s t).cfg = t.cfg := by simp [afterEdge]
@[simp] theorem afterEdge_deb : (afterEdge s t).deb = t.deb := by simp [afterEdge]
@[simp] theorem afterEdge_seq : (afterEdge s t).seq = t.seq := by simp [afterEdge]
@[simp] theorem afterEdge_susp : (afterEdge s t).susp = t.susp := by simp [afterEdge]
@[simp] theorem afterEdge_analog : (afterEdge s t).analog = t.analog := by simp [afterEdge]
@[simp] theorem afterEdge_pinr : (afterEdge s t).pinr = t.pinr := by simp [afterEdge]
@[simp] theorem afterEdge_env : (afterEdge s t).env = nextEnv t.env := by simp [afterEdge]
@[simp] theorem afterEdge_err : (afterEdge s t).intake.err = t.intake.err := by simp [afterEdge]
@[simp] theorem afterEdge_extGnt : (afterEdge s t).intake.extGnt = t.intake.extGnt := by simp [afterEdge]

/-- Tick capture at an edge (R103). -/
theorem afterEdge_tickPend :
    (afterEdge s t).intake.tickPend = (s.env.pins.sampleTick || t.intake.tickPend) := by
  simp only [afterEdge, nextCycle_intake, captureTick]
  split <;> simp_all

/-- Intake at an edge: the slot (R102). -/
theorem afterEdge_cmdSlot :
    (afterEdge s t).intake.cmdSlot =
      if s.env.pins.cmdValid && !s.intake.cmdFull then s.env.pins.cmdWord else t.intake.cmdSlot := by
  simp only [afterEdge, nextCycle_intake, captureTick_cmdSlot, takeCommand]
  split <;> simp_all

/-- Intake at an edge: the full bit (R102). -/
theorem afterEdge_cmdFull :
    (afterEdge s t).intake.cmdFull = (s.env.pins.cmdValid && !s.intake.cmdFull || t.intake.cmdFull) := by
  simp only [afterEdge, nextCycle_intake, captureTick_cmdFull, takeCommand]
  split <;> simp_all

end

/-- The next cycle's levels are the head of the script, where it lists one. -/
theorem nextEnv_cons {e : Env} {p : Inputs} {ps : List Inputs} (h : e.script = p :: ps) :
    nextEnv e = { pins := p, script := ps, edges := e.edges + 1 } := by
  unfold nextEnv
  rw [h]

@[simp] theorem nextEnv_edges (e : Env) : (nextEnv e).edges = e.edges + 1 := by
  unfold nextEnv
  split <;> rfl

end Sys2Proof.Machine
end

