-- ==== Sys2Proof/Laws/Exec.lean ====
section
/-! SUPPORT. What a micro-step of any command does, and what it leaves unchanged. -/

namespace Sys2Proof.Machine

open Host (Outcome)

/-- The micro-step table of a command, as its meaning runs it. -/
def microBody : Instr → Nat → State → State
  | .nop => fun _ t => t
  | .record d => fun _ t => record d t
  | .keysample => keysampleStep
  | .dbread => fun _ t => dbreadStep t
  | .updedge => fun _ t => updedgeStep t
  | .ledwrite d => ledwriteStep d
  | .adcread c => adcreadStep c
  | .xfer d => xferStep d

/-- Every meaning runs the micro-step `STEP` of its table (R104, R105). -/
theorem exec_eq_runMicro (i : Instr) (s : State) : exec i s = runMicro (stepsOf i) (microBody i) s := by
  cases i <;> rfl

/-- Every command has at least one micro-step (R105). -/
theorem stepsOf_pos (i : Instr) : 0 < stepsOf i := by cases i <;> simp [stepsOf]

/-- No command has more than 75 micro-steps (R105). -/
theorem stepsOf_le (i : Instr) : stepsOf i ≤ 75 := by cases i <;> simp [stepsOf]

/-- A micro-step that the command has answers a next state. -/
theorem exec_of_lt {i : Instr} {s : State} (h : s.seq.step.toNat < stepsOf i) :
    exec i s = .next (advance (stepsOf i) (microBody i s.seq.step.toNat s)) := by
  rw [exec_eq_runMicro, runMicro_of_lt h]

/-- A micro-step that the command does not have stops. -/
theorem exec_of_le {i : Instr} {s : State} (h : stepsOf i ≤ s.seq.step.toNat) :
    exec i s = .fault .strayStep := by
  rw [exec_eq_runMicro, runMicro_of_le h]

/-- What a micro-step that answers a next state did. -/
theorem exec_next {i : Instr} {s t : State} (h : exec i s = .next t) :
    s.seq.step.toNat < stepsOf i ∧ t = advance (stepsOf i) (microBody i s.seq.step.toNat s) := by
  rw [exec_eq_runMicro] at h
  exact runMicro_next h

/-- A meaning never refuses. -/
theorem exec_not_refused (i : Instr) (s : State) (r : Refusal) : exec i s ≠ .refused r := by
  rw [exec_eq_runMicro]
  exact runMicro_not_refused r

/-! ### Frames of the micro-step tables -/

section
variable (k : Nat) (s : State)

/-- A KEYSAMPLE step writes the debounce registers, `ACC` and the pin registers only. -/
theorem keysampleStep_cases :
    (k = 0 ∧ keysampleStep k s = (s.setOe false).setAcc 0) ∨
    (k = 1 ∧ keysampleStep k s = s.setKld false) ∨
    (k = 2 ∧ keysampleStep k s = s.setKld true) ∨
    (k = 19 ∧ keysampleStep k s = record (keysampleRaw s) s) ∨
    (k ≠ 1 ∧ k ≠ 19 ∧ k % 2 = 1 ∧ keysampleStep k s = s.setSck true) ∨
    (k ≠ 0 ∧ k ≠ 2 ∧ k % 2 = 0 ∧
      keysampleStep k s = (s.setAcc (shiftIn s.seq.acc (!s.env.pins.dataI))).setSck false) := by
  unfold keysampleStep
  split_ifs with h0 h1 h2 h3 h4
  · exact .inl ⟨h0, rfl⟩
  · exact .inr (.inl ⟨h1, rfl⟩)
  · exact .inr (.inr (.inl ⟨h2, rfl⟩))
  · exact .inr (.inr (.inr (.inl ⟨h3, rfl⟩)))
  · exact .inr (.inr (.inr (.inr (.inl ⟨h1, h3, h4, rfl⟩))))
  · exact .inr (.inr (.inr (.inr (.inr ⟨h0, h2, by omega, rfl⟩))))

/-- A LEDWRITE step writes `XOUT` and the pin registers only. -/
theorem ledwriteStep_cases (d : Byte) :
    (k = 0 ∧ ledwriteStep d k s = ((s.setXout (writeMapped s d)).setOe true).setLlat false) ∨
    (k = 25 ∧ ledwriteStep d k s = s.setLlat true) ∨
    (k = 26 ∧ ledwriteStep d k s = s.setLlat false) ∨
    (k ≠ 25 ∧ k % 3 = 1 ∧ ledwriteStep d k s = s.setData (msbBit s.seq.xout (k / 3))) ∨
    (k ≠ 26 ∧ k % 3 = 2 ∧ ledwriteStep d k s = s.setSck false) ∨
    (k ≠ 0 ∧ k % 3 = 0 ∧ ledwriteStep d k s = s.setSck true) := by
  unfold ledwriteStep
  split_ifs with h0 h1 h2 h3 h4
  · exact .inl ⟨h0, rfl⟩
  · exact .inr (.inl ⟨h1, rfl⟩)
  · exact .inr (.inr (.inl ⟨h2, rfl⟩))
  · exact .inr (.inr (.inr (.inl ⟨h1, h3, rfl⟩)))
  · exact .inr (.inr (.inr (.inr (.inl ⟨h2, h4, rfl⟩))))
  · exact .inr (.inr (.inr (.inr (.inr ⟨h0, by omega, rfl⟩))))

/-- An XFER step is a step of the exchange; the last one also writes `RESULT`. -/
theorem xferStep_cases (d : Byte) :
    (k = 23 ∧ xferStep d k s = (xchg d 23 s).setResult ((received s).setWidth 16)) ∨
    (k ≠ 23 ∧ xferStep d k s = xchg d k s) := by
  unfold xferStep
  split_ifs with h
  · subst h
    exact .inl ⟨rfl, rfl⟩
  · exact .inr ⟨h, rfl⟩

/-- The rows of ADCREAD's table (R171). -/
theorem adcreadStep_cases (c : Channel) :
    (k = 0 ∧ adcreadStep c k s = s.setLlat false) ∨
    (k = 1 ∧ adcreadStep c k s = s.setCs false) ∨
    (2 ≤ k ∧ k < 26 ∧ adcreadStep c k s = xchg Config.adcReq1 (k - 2) s) ∨
    (k = 49 ∧ adcreadStep c k s = (xchg (adcReq2 s.cfg c) 23 s).setR2 (received s)) ∨
    (26 ≤ k ∧ k < 49 ∧ adcreadStep c k s = xchg (adcReq2 s.cfg c) (k - 26) s) ∨
    (50 ≤ k ∧ k < 74 ∧ adcreadStep c k s = xchg s.cfg.adcReq3 (k - 50) s) ∨
    (74 ≤ k ∧ adcreadStep c k s = adcFinal c s) := by
  unfold adcreadStep
  split_ifs with h0 h1 h2 h3 h4 h5
  · exact .inl ⟨h0, rfl⟩
  · exact .inr (.inl ⟨h1, rfl⟩)
  · exact .inr (.inr (.inl ⟨by omega, h2, rfl⟩))
  · exact .inr (.inr (.inr (.inl ⟨h3, rfl⟩)))
  · exact .inr (.inr (.inr (.inr (.inl ⟨by omega, h4, rfl⟩))))
  · exact .inr (.inr (.inr (.inr (.inr (.inl ⟨by omega, h5, rfl⟩)))))
  · exact .inr (.inr (.inr (.inr (.inr (.inr ⟨by omega, rfl⟩)))))

/-- The last step of ADCREAD writes the history, perhaps `RESULT` and `ADC_CORRUPT`, and `CS_R`. -/
theorem adcFinal_fields (c : Channel) :
    (adcFinal c s).cfg = s.cfg ∧ (adcFinal c s).deb = s.deb ∧ (adcFinal c s).seq = s.seq ∧
      (adcFinal c s).intake = s.intake ∧ (adcFinal c s).env = s.env ∧
      (adcFinal c s).susp = { s.susp with adcCorrupt := if s.corrupt then false else s.susp.adcCorrupt } ∧
      (adcFinal c s).analog.hist = s.analog.hist.set c.toNat (conversionValue s) c.isLt ∧
      (adcFinal c s).analog.result =
        (if s.seq.owner = .host then (conversionValue s).setWidth 16 else s.analog.result) ∧
      (adcFinal c s).pinr = { s.pinr with cs := true } := by
  unfold adcFinal
  cases hc : s.corrupt <;> by_cases ho : s.seq.owner = .host <;>
    simp [ho, State.setCs, State.setHist, State.setCorrupt, State.setResult]

end

/-- What no micro-step of any command writes (R110, R191): the parameters, the intake, the environment, and of the
sequencer `OWNER`, `OP`, `STEP` and `INIT_CNT`. -/
theorem microBody_frame (i : Instr) (k : Nat) (s : State) :
    (microBody i k s).cfg = s.cfg ∧ (microBody i k s).intake = s.intake ∧ (microBody i k s).env = s.env ∧
      (microBody i k s).seq.owner = s.seq.owner ∧ (microBody i k s).seq.op = s.seq.op ∧
      (microBody i k s).seq.step = s.seq.step ∧ (microBody i k s).seq.initCnt = s.seq.initCnt := by
  cases i with
  | nop => simp [microBody]
  | record d => simp [microBody]
  | keysample =>
    simp only [microBody]
    rcases keysampleStep_cases k s with
      ⟨_, h⟩ | ⟨_, h⟩ | ⟨_, h⟩ | ⟨_, h⟩ | ⟨_, _, _, h⟩ | ⟨_, _, _, h⟩ <;> simp [h]
  | dbread => simp [microBody, dbreadStep]
  | updedge => simp [microBody, updedgeStep]
  | ledwrite d =>
    simp only [microBody]
    rcases ledwriteStep_cases k s d with
      ⟨_, h⟩ | ⟨_, h⟩ | ⟨_, h⟩ | ⟨_, _, h⟩ | ⟨_, _, h⟩ | ⟨_, _, h⟩ <;> simp [h]
  | adcread c =>
    simp only [microBody]
    rcases adcreadStep_cases k s c with
      ⟨_, h⟩ | ⟨_, h⟩ | ⟨_, _, h⟩ | ⟨_, h⟩ | ⟨_, _, h⟩ | ⟨_, _, h⟩ | ⟨_, h⟩
    · simp [h]
    · simp [h]
    · simp [h]
    · simp [h]
    · simp [h]
    · simp [h]
    · obtain ⟨h1, -, h3, h4, h5, -⟩ := adcFinal_fields s c
      simp [h, h1, h3, h4, h5]
  | xfer d =>
    simp only [microBody]
    rcases xferStep_cases k s d with ⟨_, h⟩ | ⟨_, h⟩ <;> simp [h]

/-- The preemption registers are written by no micro-step but ADCREAD's last, which may clear `ADC_CORRUPT` (R171). -/
theorem microBody_susp (i : Instr) (k : Nat) (s : State) :
    (microBody i k s).susp = s.susp ∨
      (∃ c, i = .adcread c ∧ 74 ≤ k ∧
        (microBody i k s).susp = { s.susp with adcCorrupt := if s.corrupt then false else s.susp.adcCorrupt }) := by
  cases i with
  | nop => exact .inl rfl
  | record d => exact .inl rfl
  | keysample =>
    refine .inl ?_
    simp only [microBody]
    rcases keysampleStep_cases k s with
      ⟨_, h⟩ | ⟨_, h⟩ | ⟨_, h⟩ | ⟨_, h⟩ | ⟨_, _, _, h⟩ | ⟨_, _, _, h⟩ <;> simp [h]
  | dbread => exact .inl rfl
  | updedge => exact .inl rfl
  | ledwrite d =>
    refine .inl ?_
    simp only [microBody]
    rcases ledwriteStep_cases k s d with
      ⟨_, h⟩ | ⟨_, h⟩ | ⟨_, h⟩ | ⟨_, _, h⟩ | ⟨_, _, h⟩ | ⟨_, _, h⟩ <;> simp [h]
  | adcread c =>
    simp only [microBody]
    rcases adcreadStep_cases k s c with
      ⟨_, h⟩ | ⟨_, h⟩ | ⟨_, _, h⟩ | ⟨_, h⟩ | ⟨_, _, h⟩ | ⟨_, _, h⟩ | ⟨hk, h⟩
    · exact .inl (by simp [h])
    · exact .inl (by simp [h])
    · exact .inl (by simp [h])
    · exact .inl (by simp [h])
    · exact .inl (by simp [h])
    · exact .inl (by simp [h])
    · exact .inr ⟨c, rfl, hk, by rw [h]; exact (adcFinal_fields s c).2.2.2.2.2.1⟩
  | xfer d =>
    refine .inl ?_
    simp only [microBody]
    rcases xferStep_cases k s d with ⟨_, h⟩ | ⟨_, h⟩ <;> simp [h]

section
variable {i : Instr} {s t : State}

/-- A meaning changes no parameter. -/
theorem exec_cfg (h : exec i s = .next t) : t.cfg = s.cfg := by
  obtain ⟨-, rfl⟩ := exec_next h
  simp [(microBody_frame i s.seq.step.toNat s).1]

/-- A meaning changes nothing of the intake (R34). -/
theorem exec_intake (h : exec i s = .next t) : t.intake = s.intake := by
  obtain ⟨-, rfl⟩ := exec_next h
  simp [(microBody_frame i s.seq.step.toNat s).2.1]

/-- A meaning changes nothing of the environment. -/
theorem exec_env (h : exec i s = .next t) : t.env = s.env := by
  obtain ⟨-, rfl⟩ := exec_next h
  simp [(microBody_frame i s.seq.step.toNat s).2.2.1]

end

end Sys2Proof.Machine
end

