-- ==== Sys2Proof/Laws/History.lean ====
section
/-! SUPPORT. The debounce registers of a history, event by event. -/

namespace Sys2Proof.Machine

variable (c : Config) (h h' : List DebEvent) (raw : Byte)

@[simp] theorem debAfter_nil : debAfter c [] = .reset c := rfl

/-- A history that goes on: the later events apply to what the earlier ones left. -/
theorem debAfter_append : debAfter c (h ++ h') = h'.foldl (debApply c.nWin) (debAfter c h) := List.foldl_append

@[simp] theorem debAfter_sample : debAfter c (h ++ [.sample raw]) = recordSample c.nWin raw (debAfter c h) :=
  debAfter_append c h _

@[simp] theorem debAfter_update : debAfter c (h ++ [.update]) = updateEdges (debAfter c h) := debAfter_append c h _

@[simp] theorem samplesOf_nil : samplesOf [] = [] := rfl

@[simp] theorem samplesOf_append : samplesOf (h ++ h') = samplesOf h ++ samplesOf h' := List.filterMap_append

@[simp] theorem samplesOf_sample : samplesOf [.sample raw] = [raw] := rfl

@[simp] theorem samplesOf_update : samplesOf [.update] = [] := rfl

end Sys2Proof.Machine
end

