-- ==== Sys2Proof/Laws/Operands.lean ====
section
/-! SUPPORT. What the operand forms read, bit by bit, and what the block's own words decode to. -/

namespace Sys2Proof.Machine

/-- Bit i of a permuted byte is bit `P[i]` of the byte (R141). -/
theorem permute_getLsbD (P : Perm) (v : Byte) (i : Nat) (hi : i < 8) :
    (permute P v).getLsbD i = v.getLsbD P[i] := by
  have : i = 0 ∨ i = 1 ∨ i = 2 ∨ i = 3 ∨ i = 4 ∨ i = 5 ∨ i = 6 ∨ i = 7 := by omega
  rcases this with h | h | h | h | h | h | h | h <;> subst h <;>
    (unfold permute; rw [BitVec.getLsbD_ofBoolListLE]; rfl)

/-- A received bit enters at the low end and the others move up by one (R140). -/
theorem shiftIn_getLsbD (acc : Byte) (b : Bool) (i : Nat) :
    (shiftIn acc b).getLsbD i = if i = 0 then b else decide (i < 8) && acc.getLsbD (i - 1) := by
  unfold shiftIn
  rw [BitVec.getLsbD_append]
  rcases i with _ | i
  · simp
  · by_cases h : i < 7
    · have h8 : i + 1 < 8 := by omega
      simp [h, h8]
    · have h8 : ¬ i + 1 < 8 := by omega
      simp [h, h8]

/-- A tick starts a KEYSAMPLE (R74). -/
theorem decode_tickWord : decode tickWord = .ok .keysample := by decide

/-- INIT starts an ADCREAD of the channel `INIT_CNT` (R74, R241). -/
theorem decode_initWord : ∀ cnt : BitVec 3, cnt.toNat < 4 → decode (initWord cnt) = .ok (.adcread (cnt.setWidth 2)) := by
  decide

/-- The value of a conversion, bit by bit (R172). -/
theorem adcValue_getLsbD (r2 r3 : Byte) (i : Nat) (hi : i < 11) :
    (adcValue r2 r3).getLsbD i = if i < 8 then r3.getLsbD i else r2.getLsbD (i - 8) := by
  have : i = 0 ∨ i = 1 ∨ i = 2 ∨ i = 3 ∨ i = 4 ∨ i = 5 ∨ i = 6 ∨ i = 7 ∨ i = 8 ∨ i = 9 ∨ i = 10 := by omega
  rcases this with h | h | h | h | h | h | h | h | h | h | h <;> subst h <;> simp [adcValue]

end Sys2Proof.Machine
end

