-- ==== Sys2Proof/Laws/PerInstr.lean ====
section
/-! SUPPORT. Facts about every command as syntax, one lemma per constructor. -/

namespace Sys2Proof.Laws.EncodeInRow

/-- The word of a command lies in the row of R72 that the command stands for. -/
def Statement (i : Instr) : Prop := encode i &&& rowMask i = rowMatch i ∧ (rowMatch i, rowMask i) ∈ opcodeRows

theorem nop : Statement .nop := ⟨by decide, by decide⟩

theorem record (d : Byte) : Statement (.record d) := ⟨by revert d; decide, by simp [rowMatch, rowMask, opcodeRows]⟩

theorem keysample : Statement .keysample := ⟨by decide, by decide⟩

theorem dbread : Statement .dbread := ⟨by decide, by decide⟩

theorem updedge : Statement .updedge := ⟨by decide, by decide⟩

theorem ledwrite (d : Byte) : Statement (.ledwrite d) := ⟨by revert d; decide, by simp [rowMatch, rowMask, opcodeRows]⟩

theorem adcread (c : Channel) : Statement (.adcread c) := ⟨by revert c; decide, by simp [rowMatch, rowMask, opcodeRows]⟩

theorem xfer (d : Byte) : Statement (.xfer d) := ⟨by revert d; decide, by simp [rowMatch, rowMask, opcodeRows]⟩

end Sys2Proof.Laws.EncodeInRow
end

