-- ==== Sys2Proof/Laws/Ports.lean ====
section
/-! SUPPORT. What a read shows while `rst_n = 1`, and what a polling host learns from STATUS. -/

namespace Sys2Proof.Machine

theorem visible_of_rstN {s : State} (h : s.env.pins.rstN = true) : visible s = s := by simp [visible, h]

theorem visible_of_reset {s : State} (h : s.env.pins.rstN = false) : visible s = .resetWith s.cfg s.env := by
  simp [visible, h]

/-- R107's condition on the STATUS word is its condition on the registers (R32). -/
theorem statusDone_statusWord (s : State) :
    statusDone (statusWord s) = (!s.intake.cmdFull && !decide (s.seq.owner = .host) && !s.suspended) := by
  unfold statusDone statusWord busyFlag
  cases s.seq.owner <;> cases s.suspended <;> cases s.intake.cmdFull <;> cases s.intake.extGnt <;>
    cases s.intake.tickPend <;> cases s.intake.err <;> cases initFlag s <;> rfl

/-- Out of reset a polling host sees the registers. -/
theorem hostDone_of_rstN {s : State} (h : s.env.pins.rstN = true) :
    hostDone s = (!s.intake.cmdFull && !decide (s.seq.owner = .host) && !s.suspended) := by
  show statusDone (statusWord (visible s)) = _
  rw [visible_of_rstN h, statusDone_statusWord]

/-- In reset STATUS shows no command. -/
theorem hostDone_of_reset {s : State} (h : s.env.pins.rstN = false) : hostDone s = true := by
  show statusDone (statusWord (visible s)) = _
  rw [visible_of_reset h, statusDone_statusWord]
  simp [State.resetWith, State.suspended, Intake.reset, Sequencer.reset, Suspended.reset]

section
variable (p : Inputs) (s : State)
@[simp] theorem withLevels_cfg : (withLevels p s).cfg = s.cfg := rfl
@[simp] theorem withLevels_deb : (withLevels p s).deb = s.deb := rfl
@[simp] theorem withLevels_seq : (withLevels p s).seq = s.seq := rfl
@[simp] theorem withLevels_intake : (withLevels p s).intake = s.intake := rfl
@[simp] theorem withLevels_susp : (withLevels p s).susp = s.susp := rfl
@[simp] theorem withLevels_analog : (withLevels p s).analog = s.analog := rfl
@[simp] theorem withLevels_pinr : (withLevels p s).pinr = s.pinr := rfl
@[simp] theorem withLevels_pins : (withLevels p s).env.pins = p := rfl
end

end Sys2Proof.Machine
end

