-- ==== Sys2Proof/Laws/Step.lean ====
section
/-! SUPPORT. What the sequencer and an edge can do, said once. -/

namespace Sys2Proof.Machine

open Host (Outcome)

theorem mapNext_next {f : State → State} {o : Outcome State Fault Refusal} {t : State}
    (h : mapNext f o = .next t) : ∃ u, o = .next u ∧ t = f u := by
  cases o with
  | next u => exact ⟨u, rfl, by injection h with h; exact h.symm⟩
  | fault r => cases h
  | refused r => cases h

section
variable (i : Instr) (w : Word) (s : State)
@[simp] theorem keepWord_cfg : (keepWord i w s).cfg = s.cfg := by unfold keepWord; split <;> rfl
@[simp] theorem keepWord_deb : (keepWord i w s).deb = s.deb := by unfold keepWord; split <;> rfl
@[simp] theorem keepWord_intake : (keepWord i w s).intake = s.intake := by unfold keepWord; split <;> rfl
@[simp] theorem keepWord_susp : (keepWord i w s).susp = s.susp := by unfold keepWord; split <;> rfl
@[simp] theorem keepWord_analog : (keepWord i w s).analog = s.analog := by unfold keepWord; split <;> rfl
@[simp] theorem keepWord_pinr : (keepWord i w s).pinr = s.pinr := by unfold keepWord; split <;> rfl
@[simp] theorem keepWord_env : (keepWord i w s).env = s.env := by unfold keepWord; split <;> rfl
@[simp] theorem keepWord_owner : (keepWord i w s).seq.owner = s.seq.owner := by unfold keepWord; split <;> rfl
@[simp] theorem keepWord_step : (keepWord i w s).seq.step = s.seq.step := by unfold keepWord; split <;> rfl
@[simp] theorem keepWord_initCnt : (keepWord i w s).seq.initCnt = s.seq.initCnt := by unfold keepWord; split <;> rfl
end

/-- Starting an operation always answers a next state: micro-step 0 of the command, or IllegalCommand (R103). -/
theorem start_total (src : Owner) (w : Word) (s : State) :
    (∃ r, decode w = .error r ∧ start src w s = .next (raiseIllegal s)) ∨
    (∃ i, decode w = .ok i ∧
      start src w s =
        .next (keepWord i w (advance (stepsOf i) (microBody i 0 ((s.setOwner src).setStep 0))))) := by
  unfold start
  cases h : decode w with
  | error r => exact .inl ⟨r, rfl, rfl⟩
  | ok i =>
    refine .inr ⟨i, rfl, ?_⟩
    simp only
    rw [exec_of_lt (by simpa using stepsOf_pos i)]
    rfl

/-- What an edge of the operation in progress did. -/
theorem stepInProgress_next {s t : State} (h : stepInProgress s = .next t) :
    ∃ i, decode s.seq.op = .ok i ∧ s.seq.step.toNat < stepsOf i ∧
      t = advance (stepsOf i) (microBody i s.seq.step.toNat s) := by
  unfold stepInProgress at h
  cases hd : decode s.seq.op with
  | error r => rw [hd] at h; cases h
  | ok i =>
    rw [hd] at h
    obtain ⟨hlt, ht⟩ := exec_next h
    exact ⟨i, rfl, hlt, ht⟩

/-- The cases of the sequencer's part of an edge (R103, R104, R193, R195). -/
theorem sequencerEdge_next {s t : State} (h : sequencerEdge s = .next t) :
    (s.seq.owner = .none ∧ startSelected s = .next t) ∨
    (s.seq.owner = .ext ∧ t = if s.env.pins.extReq then s else releaseExt s) ∨
    (preemptCondition s = true ∧ preempt s = .next t) ∨
    (s.seq.owner.busy = true ∧ preemptCondition s = false ∧ stepInProgress s = .next t) := by
  unfold sequencerEdge at h
  cases ho : s.seq.owner with
  | none => rw [ho] at h; exact .inl ⟨rfl, h⟩
  | ext => rw [ho] at h; exact .inr (.inl ⟨rfl, by injection h with h; exact h.symm⟩)
  | init =>
    rw [ho] at h
    exact .inr (.inr (.inr ⟨rfl, by simp [preemptCondition, ho], h⟩))
  | tick =>
    rw [ho] at h
    exact .inr (.inr (.inr ⟨rfl, by simp [preemptCondition, ho], h⟩))
  | host =>
    rw [ho] at h
    simp only at h
    cases hp : preemptCondition s with
    | true => rw [hp] at h; exact .inr (.inr (.inl ⟨rfl, h⟩))
    | false => rw [hp] at h; exact .inr (.inr (.inr ⟨rfl, rfl, h⟩))

/-- What an edge that answers a next state did: the reset state, or the sequencer's part and then the other events
(R101, R240). -/
theorem step_next {s t : State} (h : step s = .next t) :
    s.cfg.legal = true ∧
      ((s.env.pins.rstN = false ∧ t = resetEdge s) ∨
       (s.env.pins.rstN = true ∧ ∃ u, sequencerEdge s = .next u ∧ t = afterEdge s u)) := by
  unfold step clockEdge at h
  split at h
  · rename_i hl
    refine ⟨hl, ?_⟩
    split at h
    · rename_i hr
      obtain ⟨u, hu, rfl⟩ := mapNext_next h
      exact .inr ⟨hr, u, hu, rfl⟩
    · rename_i hr
      exact .inl ⟨by simpa using hr, by injection h with h; exact h.symm⟩
  · cases h

/-- A processed edge of a legal block. -/
theorem step_live {s : State} (hl : s.cfg.legal = true) (hr : s.env.pins.rstN = true) :
    step s = mapNext (afterEdge s) (sequencerEdge s) := by
  unfold step clockEdge
  rw [if_pos hl, if_pos hr]

end Sys2Proof.Machine
end

