-- ==== Sys2Proof/Tests/Slice0.lean ====
section
/-! SUPPORT. Tests: ill-formed terms that the checks refuse, words written out from the encoding, one step of each command
with the result of 95_test_vectors.md or of its rule, and a concrete state for the hypotheses of every statement. -/

namespace Sys2Proof.Machine.Tests

open Host (Outcome)

/-! ### Small states -/

/-- S0 of 95 section 0, with an all-zero history: INIT done, idle, nothing pending. -/
def ready : State := { State.reset with seq := { Sequencer.reset with initCnt := 4 } }

/-- An operation in progress: owner, word and next micro-step. -/
def running (o : Owner) (w : Word) (k : BitVec 7) : State :=
  { ready with seq := { ready.seq with owner := o, op := w, step := k } }

/-- An idle block with a word in the command slot. -/
def offered (w : Word) : State := { ready with intake := { ready.intake with cmdSlot := w, cmdFull := true } }

/-- A block built with `ADC_GUARDED = false`. -/
def unguarded (s : State) : State := { s with cfg := { s.cfg with adcGuarded := false } }

/-- A host ADCREAD 1 in progress with a tick pending, unguarded: it is preempted at the next edge. -/
def preempted : State :=
  { unguarded (running .host 0x6100 10) with
    intake := { ready.intake with tickPend := true },
    pinr := { PinRegs.reset with cs := false } }

/-- A KEYSAMPLE that has preempted an ADCREAD 1 at its step 10, at its own last step. -/
def preempting : State :=
  { unguarded (running .tick 0x2000 19) with
    susp := { valid := true, owner := .host, op := 0x6100, step := 10, acc := 0x12, r2 := 0x03, adcCorrupt := true },
    pinr := { PinRegs.reset with oe := false, cs := false } }

/-- The next state, where there is one. -/
def nextOf (o : Outcome State Fault Refusal) : Option State :=
  match o with
  | .next t => some t
  | .fault _ => none
  | .refused _ => none

/-- s with n more cycles of quiet levels listed. -/
def quietly (n : Nat) (s : State) : State := { s with env := { pins := .quiet, script := List.replicate n .quiet, edges := 0 } }

/-- Quiet levels are calm. -/
theorem calm_quietly (n : Nat) (s : State) : calm (n + 1) (quietly n s) := by
  refine ⟨by simp [comingLevels, quietly], fun k hk => ?_⟩
  have h : levelsAt (comingLevels (quietly n s)) k = .quiet := by
    cases k with
    | zero => rfl
    | succ k =>
      have hkn : k < n := by omega
      simp [levelsAt, comingLevels, quietly, hkn]
  rw [h]
  exact ⟨rfl, rfl⟩

/-! ### Checks refuse ill-formed terms -/

theorem test_reference_legal : Config.reference.legal = true := by decide
theorem test_window_zero_refused : ({ Config.reference with nWin := 0 } : Config).legal = false := by decide
theorem test_window_129_refused : ({ Config.reference with nWin := 129 } : Config).legal = false := by decide
theorem test_window_bounds_legal :
    ({ Config.reference with nWin := 1 } : Config).legal = true ∧
      ({ Config.reference with nWin := 128 } : Config).legal = true := by decide
theorem test_clock_not_positive_refused :
    ({ Config.reference with fClk := 0 } : Config).legal = false ∧
      ({ Config.reference with fClk := -1 } : Config).legal = false := by decide
theorem test_clock_fraction_legal : ({ Config.reference with fClk := mkRat 1 3 } : Config).legal = true := by decide
/-- S8 of 95, first two rows. -/
theorem test_valid_tables :
    Perm.legal [0, 1, 2, 3] #v[1, 0, 3, 2, 4, 5, 6, 7] = true ∧
      Perm.legal [0, 1, 2, 3] #v[3, 1, 2, 0, 4, 5, 6, 7] = true := by decide
/-- S8 of 95, third row: position 0 is lost. -/
theorem test_doubled_position_refused : Perm.legal [0, 1, 2, 3] #v[1, 1, 3, 2, 4, 5, 6, 7] = false := by decide
/-- S8 of 95, fourth row: it moves position 4, which is outside S. -/
theorem test_move_outside_set_refused : Perm.legal [0, 1, 2, 3] #v[4, 1, 2, 3, 0, 5, 6, 7] = false := by decide
theorem test_set_of_three_refused : Perm.setOk [0, 1, 2] = false := by decide
theorem test_set_with_repeat_refused : Perm.setOk [0, 1, 1, 2] = false := by decide
/-- 95 section 2.1: `ADCREAD 4` and `RECORD 256` are assembly errors. -/
theorem test_operand_out_of_range_refused :
    (AsmLine.command .adcread (some 4)).wf = false ∧ (AsmLine.command .record (some 256)).wf = false := by decide
theorem test_missing_and_stray_operand_refused :
    (AsmLine.command .xfer none).wf = false ∧ (AsmLine.command .nop (some 0)).wf = false := by decide
theorem test_illegal_config_refused :
    step { ready with cfg := { Config.reference with nWin := 0 } } = .refused .illegalConfig := by rfl

/-! ### Decoding, words written from R72's patterns and 95 section 2.1 -/

theorem test_decode_nop : decode 0b0000000000000000 = .ok .nop := by decide
theorem test_decode_record : decode 0b0001000010100101 = .ok (.record 0xA5) := by decide
theorem test_decode_keysample : decode 0b0010000000000000 = .ok .keysample := by decide
theorem test_decode_dbread : decode 0b0011000000000000 = .ok .dbread := by decide
theorem test_decode_updedge : decode 0b0100000000000000 = .ok .updedge := by decide
theorem test_decode_ledwrite : decode 0b0101000010000001 = .ok (.ledwrite 0x81) := by decide
theorem test_decode_adcread : decode 0b0110001000000000 = .ok (.adcread 2) := by decide
theorem test_decode_xfer : decode 0b0111000000111100 = .ok (.xfer 0x3C) := by decide
theorem test_decode_nonzero_fields :
    ([0x0001, 0x1100, 0x2001, 0x3100, 0x4800, 0x5181, 0x6201, 0x6400, 0x6C00, 0x7FFF] : List Word).all
      (fun w => decide (decode w = .error .nonzeroField)) = true := by decide
theorem test_decode_no_opcode :
    ([0x8000, 0xF000, 0xFFFF] : List Word).all (fun w => decide (decode w = .error .noSuchOpcode)) = true := by decide
theorem test_encode_words :
    encode (.record 0xA5) = 0x10A5 ∧ encode (.ledwrite 0x81) = 0x5081 ∧ encode (.xfer 60) = 0x703C ∧
      encode (.adcread 3) = 0x6300 := by decide
theorem test_table_word : decodeTableWord 16 0x6200 = some (.adcread 2) ∧ decodeTableWord 16 0x6400 = none := by decide
/-- 95 section 2.1, assembly. -/
theorem test_assemble_binary :
    assembleText ['L', 'E', 'D', 'W', 'R', 'I', 'T', 'E', ' ', '0', 'b', '1', '0', '0', '0', '0', '0', '0', '1', ';', 'x']
      = some 0x5081 := by decide
theorem test_assemble_decimal_and_hex :
    assembleText ['X', 'F', 'E', 'R', ' ', '6', '0'] = some 0x703C ∧
      assembleText ['R', 'E', 'C', 'O', 'R', 'D', ' ', '0', 'x', 'A', '5'] = some 0x10A5 := by decide
/-- The ports that a line does not name keep the environment's levels; a tick can come with an offered command (P3). -/
theorem test_line_levels :
    let p : Inputs := { Inputs.quiet with sdi := true, cmdValid := true, cmdWord := 0x4000 }
    lineLevels .tick p = some { p with sampleTick := true } ∧
      lineLevels (.command .ledwrite (some 0x81)) p = some { p with cmdWord := 0x5081 } ∧
      lineLevels .wait p = some { p with rdAddr := 0x00 } := by decide
/-- P1 of 95, lines 12 and 13: WAIT stays while the slot is full, and where it holds the next word is offered. -/
theorem test_wait :
    ((programCycle [.wait, .command .updedge none] (offered 0x3000)).map fun r => (r.1.env.pins.cmdValid, r.2))
        = some (false, [.wait, .command .updedge none]) ∧
      ((programCycle [.wait, .command .updedge none] ready).map fun r => (r.1.env.pins.cmdWord, r.2))
        = some (0x4000, []) := by decide
theorem test_blank_line : parseLine [' ', ';', 'x'] = .blank := by decide
theorem test_assemble_refuses :
    assembleText ['A', 'D', 'C', 'R', 'E', 'A', 'D', ' ', '4'] = none ∧
      parseLine ['T', 'I', 'C', 'K'] = .line .tick := by decide

/-! ### The host's placement, and one step of each command -/

/-- A placed NOP starts and ends at the next edge: the slot is free again (R103, R108). -/
theorem test_placed_nop_runs :
    (nextOf (step (State.reset.withFetchWord 16 0x0000))).map (fun t => (t.intake.cmdFull, t.seq.owner, t.intake.err))
      = some (false, .none, false) := by decide

/-- E1 of 95: an illegal word sets `ERR` and leaves the sequencer idle. -/
theorem test_illegal_word_sets_err :
    (nextOf (step (State.reset.withFetchWord 16 0x6400))).map (fun t => (t.intake.cmdFull, t.seq.owner, t.intake.err))
      = some (false, .none, true) := by decide

/-- R122's example: RING[0] = 0xFF, POS = 1. -/
theorem test_record_example :
    (nextOf (step (State.reset.withFetchWord 16 0x10FF))).map (fun t => (t.deb.ring, t.deb.pos))
      = some ([0xFF, 0, 0, 0, 0, 0, 0, 0, 0, 0], 1) := by decide

/-- D1 of 95, step 3: with N_WIN = 3 the position wraps. -/
theorem test_record_wraps :
    (nextOf (exec (.record 0x0B)
      { running .host 0x100B 0 with
        cfg := { Config.reference with nWin := 3 },
        deb := { Debounce.reset .reference with ring := [0x0F, 0x0E, 0x00], pos := 2 } })).map
        (fun t => (t.deb.ring, t.deb.pos)) = some ([0x0F, 0x0E, 0x0B], 0) := by decide

/-- D1 of 95, step 4: the fold of 0xFF, 0x0E, 0x0B is 0x0A. -/
theorem test_dbread_folds :
    (nextOf (exec .dbread
      { running .host 0x3000 0 with deb := { Debounce.reset .reference with ring := [0xFF, 0x0E, 0x0B] } })).map
        (fun t => t.analog.result) = some 0x000A := by decide

/-- D5 of 95, second line: PREV 0x0C, fold 0x0A. -/
theorem test_updedge_masks :
    (nextOf (exec .updedge
      { running .host 0x4000 0 with
        deb := { Debounce.reset .reference with ring := [0x0A], prev := 0x0C, cur := 0x0C } })).map
        (fun t => (t.deb.down, t.deb.up, t.deb.cur, t.deb.prev)) = some (0x02, 0x04, 0x0A, 0x0A) := by decide

/-- R143 step 4+2j: a zero level enters as a one at the low end, and the clock falls. -/
theorem test_keysample_inverts :
    (nextOf (exec .keysample
      { running .host 0x2000 4 with seq := { (running .host 0x2000 4).seq with acc := 0x81 } })).map
        (fun t => (t.seq.acc, t.pinr.sck, t.seq.step)) = some (0x03, false, 5) := by decide

/-- 95 section 2.3, fifth row: raw 0x01 through PERM_R = (1,0,3,2,4,5,6,7) is recorded as 0x02. -/
theorem test_keysample_permutes :
    (nextOf (exec .keysample
      { running .tick 0x2000 19 with
        cfg := { Config.reference with reorder := true, permR := #v[1, 0, 3, 2, 4, 5, 6, 7] },
        seq := { (running .tick 0x2000 19).seq with acc := 0x01 } })).map
        (fun t => (t.deb.ring.head?, t.deb.pos, t.seq.owner)) = some (some 0x02, 1, .none) := by decide

/-- L3 of 95: LEDWRITE 0x01 through PERM_W = (3,1,2,0,4,5,6,7) shifts out 0x08. -/
theorem test_ledwrite_permutes :
    (nextOf (exec (.ledwrite 0x01)
      { running .host 0x5001 0 with
        cfg := { Config.reference with reorder := true, permW := #v[3, 1, 2, 0, 4, 5, 6, 7] } })).map
        (fun t => t.seq.xout) = some 0x08 := by decide

/-- R145 step 1+3j, j = 7: the last bit on the line is bit 0. -/
theorem test_ledwrite_last_bit :
    (nextOf (exec (.ledwrite 0x01)
      { running .host 0x5001 22 with seq := { (running .host 0x5001 22).seq with xout := 0x01 } })).map
        (fun t => (t.pinr.data, t.seq.step)) = some (true, 23) := by decide

/-- R147 step 23: the received byte goes to RESULT, not inverted. -/
theorem test_xfer_result :
    (nextOf (exec (.xfer 0x3C)
      { running .host 0x703C 23 with
        seq := { (running .host 0x703C 23).seq with acc := 0x52 },
        env := { Env.quiet with pins := { Inputs.quiet with sdi := true } } })).map
        (fun t => (t.analog.result, t.seq.owner, t.pinr.sck)) = some (0x00A5, .none, false) := by decide

/-- R140 t = 0: bit 7 is driven, the line is an output. -/
theorem test_xfer_first_bit :
    (nextOf (exec (.xfer 0x80) (running .host 0x7080 0))).map (fun t => (t.pinr.data, t.pinr.oe)) = some (true, true) := by
  decide

/-- 95 section 2.6, second row: r2 = 0xFF, r3 = 0xFF give 0x7FF, bit 10 set (90 C2). -/
theorem test_adcread_eleven_bits :
    (nextOf (exec (.adcread 2)
      { running .host 0x6200 74 with seq := { (running .host 0x6200 74).seq with r2 := 0xFF, acc := 0xFF } })).map
        (fun t => (t.analog.result, t.analog.hist.get 2, t.analog.hist.get 1, t.pinr.cs))
      = some (0x07FF, 0x7FF, 0, true) := by decide

/-- R174: an INIT conversion writes the history and not RESULT, and is counted. -/
theorem test_adcread_init :
    (nextOf (exec (.adcread 1)
      { running .init 0x6100 74 with
        seq := { (running .init 0x6100 74).seq with r2 := 0x01, acc := 0x34, initCnt := 1 } })).map
        (fun t => (t.analog.result, t.analog.hist.get 1, t.seq.initCnt)) = some (0, 0x134, 2) := by decide

/-- P-1 of 95, edge 12: preempted with SUSP_STEP = 10, STATUS = 0x0281. -/
theorem test_preemption_status :
    (nextOf (step { preempted with env := { Env.quiet with script := [.quiet] } })).map
      (fun t => (t.susp.step, hostRead t 0x00)) = some (10, 0x0281) := by decide

/-- A1 of 95, edge 1: a tick and a command at one edge give STATUS = 0x0006. -/
theorem test_tick_and_command_captured :
    (nextOf (step
      { ready with
        env :=
          { Env.quiet with
            pins := { Inputs.quiet with sampleTick := true, cmdValid := true, cmdWord := 0x3000 },
            script := [.quiet] } })).map (fun t => hostRead t 0x00) = some 0x0006 := by decide

/-- A4 of 95, edge 1: an EXT request is granted, STATUS = 0x0108. -/
theorem test_ext_granted :
    (nextOf (step
      { ready with
        env := { Env.quiet with pins := { Inputs.quiet with extReq := true }, script := [.quiet] } })).map
        (fun t => hostRead t 0x00) = some 0x0108 := by decide

/-- R2 of 95, edge 1: INIT starts and a command is accepted, STATUS = 0x0063. -/
theorem test_init_starts :
    (nextOf (step
      { State.reset with
        env :=
          { Env.quiet with
            pins := { Inputs.quiet with cmdValid := true, cmdWord := 0x10AA }, script := [.quiet] } })).map
        (fun t => (hostRead t 0x00, t.seq.op)) = some (0x0063, 0x6000) := by decide

/-- R240: STATUS reads 0x0020 during reset, and the block is not ready. -/
theorem test_status_in_reset :
    hostRead { ready with env := { Env.quiet with pins := { Inputs.quiet with rstN := false } } } 0x00 = 0x0020 ∧
      (outputs { ready with env := { Env.quiet with pins := { Inputs.quiet with rstN := false } } }).cmdReady = false := by
  decide

/-! ### Concrete states that meet the hypotheses of the statements, in the order of the obligations -/

theorem wit_DecodeAndEncodeAgree : decode 0x6200 = .ok (.adcread 2) := by decide

theorem wit_WordsDecodeIffOneRowMatches : decode 0x703C = .ok (.xfer 0x3C) := by decide

theorem wit_AssemblerEncodesOperandsInRange : 255 < 256 ∧ 3 < 4 ∧ 256 ≤ 256 ∧ 4 ≤ 4 := by decide

theorem wit_StepRunsTheDecodedCommand_inProgress :
    live (running .host 0x703C 5) ∧ (running .host 0x703C 5).seq.owner.busy = true ∧
      preemptCondition (running .host 0x703C 5) = false ∧
      decode (running .host 0x703C 5).seq.op = .ok (.xfer 0x3C) := by decide

theorem wit_StepRunsTheDecodedCommand_selected :
    live (offered 0x10FF) ∧ (offered 0x10FF).seq.owner = .none ∧ arbitrate (offered 0x10FF) = .host ∧
      decode (offered 0x10FF).intake.cmdSlot = .ok (.record 0xFF) := by decide

/-- A tick, INIT at its last count, and a preemption. -/
theorem wit_StepRunsTheDecodedCommand_block :
    let ticked : State := { ready with intake := { ready.intake with tickPend := true } }
    let initLeft : State := { ready with seq := { ready.seq with initCnt := 3 } }
    (live ticked ∧ ticked.seq.owner = .none ∧ arbitrate ticked = .tick) ∧
      (live initLeft ∧ initLeft.seq.owner = .none ∧ arbitrate initLeft = .init) ∧
      live preempted ∧ preemptCondition preempted = true := by decide

/-- Before the last step; the last step of HOST, of INIT, and of a preempting TICK. -/
theorem wit_MicroStepThenBookkeeping :
    (running .host 0x6200 0).seq.step.toNat + 1 < stepsOf (.adcread 2) ∧
      (running .host 0x6200 74).seq.step.toNat + 1 = stepsOf (.adcread 2) ∧
      (running .host 0x6200 74).seq.owner ≠ .init ∧
      ¬((running .host 0x6200 74).seq.owner = .tick ∧ (running .host 0x6200 74).suspended = true) ∧
      (running .init 0x6000 74).seq.step.toNat + 1 = stepsOf (.adcread 0) ∧
      (running .init 0x6000 74).seq.owner = .init ∧
      preempting.seq.step.toNat + 1 = stepsOf .keysample ∧ preempting.seq.owner = .tick ∧
      preempting.suspended = true := by decide

theorem wit_StrayStepStops : stepsOf .keysample ≤ (running .host 0x2000 20).seq.step.toNat := by decide

theorem wit_EdgeKeepsParametersAndTakesNextLevels :
    ∃ t, step (quietly 1 ready) = .next t ∧ (quietly 1 ready).env.script = [.quiet] := ⟨_, rfl, rfl⟩

theorem wit_NopDoesNothing :
    (running .host 0x0000 0).seq.step.toNat = 0 ∧ (running .host 0x0000 0).seq.owner = .host ∧ live (offered 0x0000) ∧
      (offered 0x0000).seq.owner = .none ∧ arbitrate (offered 0x0000) = .host ∧
      (offered 0x0000).intake.cmdSlot = 0x0000 ∧ decode 0x0000 = .ok .nop := by decide

theorem wit_RecordStoresTheGivenSample :
    (running .host 0x10FF 0).seq.step.toNat = 0 ∧ (running .host 0x10FF 0).seq.owner = .host := by decide

theorem wit_DbreadReadsTheFold :
    (running .host 0x3000 0).seq.step.toNat = 0 ∧ (running .host 0x3000 0).seq.owner = .host := by decide

theorem wit_UpdedgeComputesTheEdges :
    (running .host 0x4000 0).seq.step.toNat = 0 ∧ (running .host 0x4000 0).seq.owner = .host := by decide

theorem wit_EdgeMasksAreDisjoint : (running .host 0x4000 0).seq.step.toNat = 0 := by decide

theorem wit_SecondUpdedgeIsEmpty :
    ∃ t t', (running .host 0x4000 0).seq.step.toNat = 0 ∧ exec .updedge (running .host 0x4000 0) = .next t ∧
      (running .host 0x4000 0).deb = t.deb ∧ exec .updedge (running .host 0x4000 0) = .next t' :=
  ⟨_, _, by decide, rfl, by decide, rfl⟩

theorem wit_WindowHoldsTheLastSamples :
    Config.reference.windowOk = true ∧ 0 < (samplesOf [.sample 0xFF, .update]).length ∧
      (samplesOf [.sample 0xFF, .update]).length ≤ 0 + Config.reference.nWin := by decide

theorem wit_TransientsNeverRegisterAsPressed :
    ({ Config.reference with nWin := 2 } : Config).windowOk = true ∧
      (debAfter { Config.reference with nWin := 2 } ([.sample 0x81, .sample 0x80] ++ [.update])).down.getLsbD 7 = true := by
  decide

theorem wit_SlowToSetFastToClear :
    ({ Config.reference with nWin := 2 } : Config).windowOk = true ∧
      (foldAnd (debAfter { Config.reference with nWin := 2 } [.sample 0x81, .sample 0x80]).ring).getLsbD 7 = true ∧
      (0x01 : Byte).getLsbD 7 = false := by decide

theorem wit_DebounceLanesAreIndependent :
    let d : Debounce := { Debounce.reset .reference with ring := [0x01, 0x03], prev := 0x01 }
    let d' : Debounce := { Debounce.reset .reference with ring := [0x11, 0xF1], prev := 0xF1 }
    (d.ring.map fun x => x.getLsbD 0) = (d'.ring.map fun x => x.getLsbD 0) ∧ d.pos = d'.pos ∧
      d.prev.getLsbD 0 = d'.prev.getLsbD 0 ∧ (0x00 : Byte).getLsbD 0 = (0x80 : Byte).getLsbD 0 := by decide

theorem wit_Inv_live_idle : Inv (offered 0x10FF) ∧ live (offered 0x10FF) := by decide

/-- A KEYSAMPLE's last step, a host RECORD, a host UPDEDGE, and a change. -/
theorem wit_DebounceRegistersHaveThreeWriters :
    (∃ t, Inv preempting ∧ live preempting ∧ step preempting = .next t ∧ preempting.seq.owner.busy = true ∧
      preempting.seq.op = tickWord ∧ preempting.seq.step = 19) ∧
    (∃ t, Inv (offered 0x10FF) ∧ live (offered 0x10FF) ∧ step (offered 0x10FF) = .next t ∧
      (offered 0x10FF).seq.owner = .none ∧ arbitrate (offered 0x10FF) = .host ∧
      (offered 0x10FF).intake.cmdSlot = encode (.record 0xFF) ∧ t.deb ≠ (offered 0x10FF).deb) ∧
    ∃ t, Inv (offered 0x4000) ∧ live (offered 0x4000) ∧ step (offered 0x4000) = .next t ∧
      (offered 0x4000).seq.owner = .none ∧ arbitrate (offered 0x4000) = .host ∧
      (offered 0x4000).intake.cmdSlot = 0x4000 :=
  ⟨⟨_, by decide, by decide, rfl, by decide, by decide, by decide⟩,
    ⟨_, by decide, by decide, rfl, by decide, by decide, by decide, by decide⟩,
    _, by decide, by decide, rfl, by decide, by decide, by decide⟩

theorem wit_KeysampleFollowsItsTable :
    (running .tick 0x2000 0).seq.step.toNat = 0 ∧ (running .tick 0x2000 1).seq.step.toNat = 1 ∧
      (running .tick 0x2000 2).seq.step.toNat = 2 ∧ (running .tick 0x2000 3).seq.step.toNat = 3 + 2 * 0 ∧
      (running .tick 0x2000 17).seq.step.toNat = 3 + 2 * 7 ∧ (running .tick 0x2000 4).seq.step.toNat = 4 + 2 * 0 ∧
      (running .tick 0x2000 18).seq.step.toNat = 4 + 2 * 7 ∧ (running .tick 0x2000 19).seq.step.toNat = 19 := by decide

theorem wit_KeysampleRecordsInvertedLevels :
    (running .tick 0x2000 0).seq.step.toNat = 0 ∧ (List.replicate 20 Inputs.quiet).length = 20 ∧
      ((running .tick 0x2000 0).seq.owner = .host ∨ (running .tick 0x2000 0).seq.owner = .tick) ∧
      (running .tick 0x2000 0).suspended = false := by decide

theorem wit_LedwriteFollowsItsTable :
    (running .host 0x5081 0).seq.owner = .host ∧ (running .host 0x5081 0).seq.step.toNat = 0 ∧
      (running .host 0x5081 1).seq.step.toNat = 1 + 3 * 0 ∧ (running .host 0x5081 22).seq.step.toNat = 1 + 3 * 7 ∧
      (running .host 0x5081 2).seq.step.toNat = 2 + 3 * 0 ∧ (running .host 0x5081 23).seq.step.toNat = 2 + 3 * 7 ∧
      (running .host 0x5081 3).seq.step.toNat = 3 + 3 * 0 ∧ (running .host 0x5081 24).seq.step.toNat = 3 + 3 * 7 ∧
      (running .host 0x5081 25).seq.step.toNat = 25 ∧ (running .host 0x5081 26).seq.step.toNat = 26 ∧
      live (running .host 0x5081 26) ∧ (running .host 0x5081 26).seq.op = encode (.ledwrite 0x81) := by decide

theorem wit_LedwriteShiftsOutAndLatches :
    (running .host 0x5081 0).seq.step.toNat = 0 ∧ (List.replicate 27 Inputs.quiet).length = 27 ∧
      (running .host 0x5081 0).seq.owner = .host := by decide

theorem wit_XferFollowsItsTable :
    (running .host 0x703C 0).seq.owner = .host ∧ (running .host 0x703C 0).seq.step.toNat = 0 ∧
      (running .host 0x703C 3).seq.step.toNat = 3 * 1 ∧ (running .host 0x703C 21).seq.step.toNat = 3 * 7 ∧
      (running .host 0x703C 1).seq.step.toNat = 3 * 0 + 1 ∧ (running .host 0x703C 22).seq.step.toNat = 3 * 7 + 1 ∧
      (running .host 0x703C 2).seq.step.toNat = 3 * 0 + 2 ∧ (running .host 0x703C 20).seq.step.toNat = 3 * 6 + 2 ∧
      (running .host 0x703C 23).seq.step.toNat = 23 := by decide

theorem wit_XferReturnsTheReceivedByte :
    (running .host 0x703C 0).seq.step.toNat = 0 ∧ (List.replicate 24 Inputs.quiet).length = 24 ∧
      (running .host 0x703C 0).seq.owner = .host := by decide

theorem wit_AdcreadFollowsItsTable :
    (running .host 0x6200 0).seq.step.toNat = 0 ∧ (running .host 0x6200 1).seq.step.toNat = 1 ∧
      (running .host 0x6200 2).seq.step.toNat = 2 + 0 ∧ (running .host 0x6200 25).seq.step.toNat = 2 + 23 ∧
      (running .host 0x6200 26).seq.step.toNat = 26 + 0 ∧ (running .host 0x6200 48).seq.step.toNat = 26 + 22 ∧
      (running .host 0x6200 49).seq.step.toNat = 49 ∧ (running .host 0x6200 50).seq.step.toNat = 50 + 0 ∧
      (running .host 0x6200 73).seq.step.toNat = 50 + 23 ∧ (running .host 0x6200 74).seq.step.toNat = 74 ∧
      (running .host 0x6200 74).seq.owner = .host ∧
      (running .init 0x6000 74).seq.step.toNat = 74 ∧
      (running .init 0x6000 74).seq.owner = .init := by decide

theorem wit_AdcreadConvertsTheResponses :
    (running .init 0x6000 0).seq.step.toNat = 0 ∧ (List.replicate 75 Inputs.quiet).length = 75 ∧
      ((running .init 0x6000 0).seq.owner = .host ∨ (running .init 0x6000 0).seq.owner = .init) ∧
      (running .init 0x6000 0).corrupt = false := by decide

theorem wit_ResponsesRoundTrip : (0xFB : Byte).extractLsb' 0 3 = (0x3FF : AdcValue).extractLsb' 8 3 := by decide

theorem wit_LegalPermutationsAreBijections :
    Perm.legal [0, 1, 2, 3] #v[3, 1, 2, 0, 4, 5, 6, 7] = true ∧ (4 : BitPos) ∉ ([0, 1, 2, 3] : List BitPos) := by decide

theorem wit_OnlyIllegalConfigurationsAreRefused :
    ({ ready with cfg := { Config.reference with nWin := 0 } } : State).cfg.legal = false ∧ ready.cfg.legal = true := by
  decide

/-- EXT; INIT at its last count; TICK; HOST with a one-step and with a longer command; nothing. -/
theorem wit_IdleEdgeStartsHighestPriority :
    let extAsked : State := { ready with env := { Env.quiet with pins := { Inputs.quiet with extReq := true } } }
    let initLeft : State := { ready with seq := { ready.seq with initCnt := 3 } }
    let ticked : State := { ready with intake := { ready.intake with tickPend := true } }
    (live extAsked ∧ extAsked.seq.owner = .none ∧ extAsked.env.pins.extReq = true) ∧
      (live initLeft ∧ initLeft.seq.owner = .none ∧ initLeft.env.pins.extReq = false ∧ initLeft.seq.initCnt.toNat < 4) ∧
      (live ticked ∧ ticked.seq.owner = .none ∧ ticked.env.pins.extReq = false ∧ 4 ≤ ticked.seq.initCnt.toNat ∧
        ticked.intake.tickPend = true) ∧
      (live (offered 0x10FF) ∧ (offered 0x10FF).intake.tickPend = false ∧ (offered 0x10FF).intake.cmdFull = true ∧
        decode (offered 0x10FF).intake.cmdSlot = .ok (.record 0xFF) ∧ stepsOf (.record 0xFF) = 1) ∧
      (decode (offered 0x5081).intake.cmdSlot = .ok (.ledwrite 0x81) ∧ 1 < stepsOf (.ledwrite 0x81)) ∧
      (live (offered 0x6400) ∧ (offered 0x6400).seq.owner = .none ∧ (offered 0x6400).intake.cmdFull = true ∧
        legalWord (offered 0x6400).intake.cmdSlot = false) ∧
      (live ready ∧ ready.seq.owner = .none ∧ ready.env.pins.extReq = false ∧ 4 ≤ ready.seq.initCnt.toNat ∧
        ready.intake.tickPend = false ∧ ready.intake.cmdFull = false) := by decide

theorem wit_ExtGrantHoldRelease :
    let held : State :=
      { ready with
        seq := { ready.seq with owner := .ext }, intake := { ready.intake with extGnt := true },
        env := { Env.quiet with pins := { Inputs.quiet with extReq := true } } }
    let left : State := { held with env := Env.quiet }
    (live held ∧ held.seq.owner = .ext ∧ held.env.pins.extReq = true) ∧
      (live left ∧ left.seq.owner = .ext ∧ left.env.pins.extReq = false) := by decide

theorem wit_CommandIntakeNeedsFreeSlot :
    let offering : State :=
      { ready with env := { Env.quiet with pins := { Inputs.quiet with cmdValid := true, cmdWord := 0x3000 } } }
    (∃ t, live offering ∧ step offering = .next t ∧ offering.env.pins.cmdValid = true ∧
      offering.intake.cmdFull = false) ∧
    ∃ t, live (offered 0x10FF) ∧ step (offered 0x10FF) = .next t ∧ (offered 0x10FF).intake.cmdFull = true :=
  ⟨⟨_, by decide, rfl, rfl, rfl⟩, _, by decide, rfl, rfl⟩

theorem wit_TicksCoalesceInOneBit :
    let ticking : State := { ready with env := { Env.quiet with pins := { Inputs.quiet with sampleTick := true } } }
    let pending : State := { ready with intake := { ready.intake with tickPend := true } }
    (∃ t, live ticking ∧ step ticking = .next t ∧ ticking.env.pins.sampleTick = true) ∧
    ∃ t, live pending ∧ step pending = .next t ∧ pending.env.pins.sampleTick = false ∧ pending.intake.tickPend = true :=
  ⟨⟨_, by decide, rfl, rfl⟩, _, by decide, rfl, rfl, rfl⟩

theorem wit_IllegalCommandSetsStickyErr :
    (live (offered 0x6400) ∧ (offered 0x6400).seq.owner = .none ∧ arbitrate (offered 0x6400) = .host ∧
      legalWord (offered 0x6400).intake.cmdSlot = false) ∧
    (∃ t, live (offered 0x6400) ∧ step (offered 0x6400) = .next t ∧ t.intake.err = true) ∧
    let s : State := { offered 0x6400 with env := { Env.quiet with pins := { Inputs.quiet with rstN := false } } }
    ∃ t, s.cfg.legal = true ∧ s.env.pins.rstN = false ∧ step s = .next t :=
  ⟨by decide, ⟨_, by decide, rfl, rfl⟩, _, by decide, rfl, rfl⟩

theorem wit_OperationsRunToCompletion :
    ∃ t, Inv (running .host 0x703C 5) ∧ live (running .host 0x703C 5) ∧ (running .host 0x703C 5).seq.owner.busy = true ∧
      decode (running .host 0x703C 5).seq.op = .ok (.xfer 0x3C) ∧ (running .host 0x703C 5).cfg.adcGuarded = true ∧
      step (running .host 0x703C 5) = .next t ∧ (running .host 0x703C 5).seq.step.toNat + 1 < stepsOf (.xfer 0x3C) :=
  ⟨_, by decide, by decide, by decide, by decide, by decide, rfl, by decide⟩

theorem wit_PreemptionSavesTheAdcread :
    Inv preempted ∧ live preempted ∧ preempted.cfg.adcGuarded = false ∧ preempted.seq.owner = .host ∧
      opcOf preempted.seq.op = 0x6 ∧ preempted.susp.valid = false ∧ preempted.intake.tickPend = true ∧
      ready.cfg.adcGuarded = true := by decide

theorem wit_PreemptedAdcreadResumesCorrupted :
    (preempting.suspended = true ∧ preempting.seq.owner = .tick ∧ preempting.seq.step.toNat = 19) ∧
      let s : State :=
        { unguarded (running .host 0x6100 74) with susp := { Suspended.reset with adcCorrupt := true } }
      s.corrupt = true ∧ s.seq.owner = .host ∧ s.seq.step.toNat = 74 := by decide

theorem wit_ResetEdgeGivesTheResetState :
    let s : State := { ready with env := { Env.quiet with pins := { Inputs.quiet with rstN := false } } }
    s.cfg.legal = true ∧ s.env.pins.rstN = false := by decide

theorem wit_RunsFollowTheirDebounceHistory : ({ Config.reference with nWin := 1 } : Config).legal = true := by decide

/-- A KEYSAMPLE's last step, processed and in reset, with the empty history of a ring that nothing has written. -/
theorem wit_StepExtendsTheDebounceHistory :
    (∃ t, Inv preempting ∧ preempting.deb = debAfter preempting.cfg [] ∧ step preempting = .next t ∧
      preempting.env.pins.rstN = true ∧ debEventsOf preempting ≠ []) ∧
    let s : State := { preempting with env := { Env.quiet with pins := { Inputs.quiet with rstN := false } } }
    ∃ t, Inv s ∧ s.deb = debAfter s.cfg [] ∧ step s = .next t ∧ s.env.pins.rstN = false :=
  ⟨⟨_, by decide, rfl, rfl, rfl, by simp [debEventsOf, preempting, unguarded, running, Owner.busy, tickWord]⟩,
    _, by decide, rfl, rfl, rfl⟩

theorem wit_ResetMeetsTheInvariant : Config.reference.legal = true := by decide

theorem wit_StepKeepsTheInvariant : Inv preempting ∧ ∃ t, step preempting = .next t := ⟨by decide, _, rfl⟩

theorem wit_NoStopFromTheInvariant : Inv (running .host 0x703C 5) ∧ Inv preempted ∧ Inv preempting :=
  ⟨by decide, by decide, by decide⟩

theorem wit_DatapathWrittenAtLastStepOnly :
    ∃ t, live (offered 0x10FF) ∧ step (offered 0x10FF) = .next t ∧ t.deb ≠ (offered 0x10FF).deb :=
  ⟨_, by decide, rfl, by decide⟩

theorem wit_ResultAndHistoryWriters :
    let s : State :=
      { running .host 0x6200 74 with
        seq := { (running .host 0x6200 74).seq with r2 := 0x03, acc := 0xFF }, pinr := { PinRegs.reset with cs := false } }
    ∃ t, Inv s ∧ live s ∧ step s = .next t ∧ t.analog.result ≠ s.analog.result ∧
      t.analog.hist.get 2 ≠ s.analog.hist.get 2 :=
  ⟨_, by decide, by decide, rfl, by decide, by decide⟩

theorem wit_PinRegistersChangeOnlyInTransactions :
    ∃ t, Inv (running .host 0x703C 4) ∧ live (running .host 0x703C 4) ∧ step (running .host 0x703C 4) = .next t ∧
      t.pinr ≠ (running .host 0x703C 4).pinr :=
  ⟨_, by decide, by decide, rfl, by decide⟩

theorem wit_RotateMattersAtTwoStepsOnly :
    let s := running .host 0x703C 4
    Inv s ∧ live s ∧ ¬(s.seq.owner.busy = true ∧ s.seq.op = tickWord ∧ s.seq.step = 19) ∧
      ¬(s.seq.owner = .none ∧ arbitrate s = .host ∧ opcOf s.intake.cmdSlot = 0x5) := by decide

theorem wit_HostDoneMeansCompleted :
    let s := quietly 1 (offered 0x10FF)
    let r := quietly 1 ready
    (∃ t, Inv s ∧ live s ∧ step s = .next t ∧ hostDone s = false ∧ hostDone t = true ∧ t.env.pins.rstN = true) ∧
    ∃ t, Inv r ∧ live r ∧ step r = .next t ∧ hostDone r = true ∧ r.env.pins.cmdValid = false :=
  ⟨⟨_, by decide, by decide, rfl, by decide, by decide, rfl⟩, _, by decide, by decide, rfl, by decide, rfl⟩

/-- A WAIT that goes on, and one that stays: behind a word in the slot, and behind a HOST operation. -/
theorem wit_PseudoLinesTickAndWait :
    ((statusWord (visible ready)).getLsbD 1 = false ∧ (statusWord (visible ready)).extractLsb' 6 3 ≠ 3 ∧
      (statusWord (visible ready)).getLsbD 9 = false) ∧
    (statusWord (visible (offered 0x3000))).getLsbD 1 = true ∧
    (statusWord (visible (running .host 0x703C 5))).extractLsb' 6 3 = 3 := by decide

theorem wit_CommandLinesAreOfferedUntilAccepted :
    assembleLine (.command .xfer (some 60)) = some (.xfer 0x3C) ∧
      (AsmLine.command .adcread (some 4)).wf = false := by decide

theorem wit_InitConvertsTheFourChannels :
    Config.reference.legal = true ∧
      calm 300 (.resetWith .reference { pins := .quiet, script := List.replicate 299 .quiet, edges := 0 }) :=
  ⟨by decide, calm_quietly 299 (.resetWith .reference .quiet)⟩

/-- Guarded, behind an ADCREAD that has just started; and unguarded, behind a LEDWRITE. -/
theorem wit_PendingTickStartsInTime :
    let s : State :=
      { quietly 74 (running .host 0x6200 1) with intake := { ready.intake with tickPend := true } }
    let u : State :=
      { quietly 26 (unguarded (running .host 0x5081 1)) with intake := { ready.intake with tickPend := true } }
    (Inv s ∧ s.seq.initCnt = 4 ∧ s.intake.tickPend = true ∧ s.seq.owner ≠ .ext ∧
      calm (if s.cfg.adcGuarded then 75 else 27) s) ∧
    (Inv u ∧ u.seq.initCnt = 4 ∧ u.intake.tickPend = true ∧ u.seq.owner ≠ .ext ∧
      calm (if u.cfg.adcGuarded then 75 else 27) u) :=
  ⟨⟨by decide, by decide, by decide, by decide, calm_quietly 74 (running .host 0x6200 1)⟩,
    by decide, by decide, by decide, by decide, calm_quietly 26 (unguarded (running .host 0x5081 1))⟩

theorem wit_LineMultiplexer : ready.env.pins.rstN = true := by decide

/-- Both ends of the reserved addresses of R31, and a legal block out of reset. -/
theorem wit_HostRegisterMap :
    ready.env.pins.rstN = true ∧ ready.cfg.legal = true ∧ 0x0C < (0x0D : HostAddr).toNat ∧ (0x0D : HostAddr).toNat < 0x80 ∧
      0x0C < (0x7F : HostAddr).toNat ∧ (0x7F : HostAddr).toNat < 0x80 := by decide

end Sys2Proof.Machine.Tests
end

section
namespace Sys2Proof

/-! SUPPORT. A word and its fields (R70), and what a word that decodes is. -/

/-- A word is laid out from its own fields (R70). -/
theorem word_fields (w : Word) : opcOf w ++ argzOf w ++ chOf w ++ dataOf w = w := by
  unfold opcOf argzOf chOf dataOf
  calc w.extractLsb' 12 4 ++ w.extractLsb' 10 2 ++ w.extractLsb' 8 2 ++ w.extractLsb' 0 8
      = w.extractLsb' 10 6 ++ w.extractLsb' 8 2 ++ w.extractLsb' 0 8 := by
        rw [BitVec.extractLsb'_append_extractLsb'_eq_extractLsb' (start₁ := 10) (len₁ := 2) rfl]
    _ = w.extractLsb' 8 8 ++ w.extractLsb' 0 8 := by
        rw [BitVec.extractLsb'_append_extractLsb'_eq_extractLsb' (start₁ := 8) (len₁ := 2) rfl]
    _ = w.extractLsb' 0 16 := BitVec.extractLsb'_append_extractLsb'_eq_extractLsb' rfl
    _ = w := BitVec.extractLsb'_eq_self

/-- The word that `word` lays out is the only one with these fields and `ARGZ = 0` (R70). -/
theorem word_eq_of_fields {w : Word} {opc : BitVec 4} {ch : Channel} {data : Byte}
    (ho : (opcOf w).toNat = opc.toNat) (hz : argzOf w = 0) (hc : chOf w = ch) (hd : dataOf w = data) :
    word opc ch data = w := by
  have hopc : opcOf w = opc := BitVec.eq_of_toNat_eq ho
  rw [← word_fields w, hopc, hz, hc, hd]
  rfl

/-- The operation code of a word laid out from its fields (R70). -/
@[simp] theorem opcOf_word (opc : BitVec 4) (ch : Channel) (data : Byte) : opcOf (word opc ch data) = opc := by
  unfold opcOf word
  rw [BitVec.extractLsb'_append_eq_of_le (by decide), BitVec.extractLsb'_append_eq_of_le (by decide),
    BitVec.extractLsb'_append_eq_of_le (by decide)]
  exact BitVec.extractLsb'_eq_self

theorem whenZero_eq_ok {zero : Bool} {i j : Instr} : whenZero zero i = .ok j ↔ zero = true ∧ i = j := by
  cases zero <;> simp [whenZero]

/-- A word that decodes is the word of the command it decodes to (R72, R75). -/
theorem encode_of_decode {w : Word} {i : Instr} (h : decode w = .ok i) : encode i = w := by
  unfold decode at h
  split at h <;> simp only [whenZero_eq_ok, Bool.and_eq_true, decide_eq_true_eq, reduceCtorEq] at h
  case h_1 ho => obtain ⟨⟨⟨hz, hc⟩, hd⟩, rfl⟩ := h; exact word_eq_of_fields ho hz hc hd
  case h_2 ho => obtain ⟨⟨hz, hc⟩, rfl⟩ := h; exact word_eq_of_fields ho hz hc rfl
  case h_3 ho => obtain ⟨⟨⟨hz, hc⟩, hd⟩, rfl⟩ := h; exact word_eq_of_fields ho hz hc hd
  case h_4 ho => obtain ⟨⟨⟨hz, hc⟩, hd⟩, rfl⟩ := h; exact word_eq_of_fields ho hz hc hd
  case h_5 ho => obtain ⟨⟨⟨hz, hc⟩, hd⟩, rfl⟩ := h; exact word_eq_of_fields ho hz hc hd
  case h_6 ho => obtain ⟨⟨hz, hc⟩, rfl⟩ := h; exact word_eq_of_fields ho hz hc rfl
  case h_7 ho => obtain ⟨⟨hz, hd⟩, rfl⟩ := h; exact word_eq_of_fields ho hz rfl hd
  case h_8 ho => obtain ⟨⟨hz, hc⟩, rfl⟩ := h; exact word_eq_of_fields ho hz hc rfl
end Sys2Proof
end

section
namespace Sys2Proof.Machine

/-! SUPPORT. What a micro-step leaves unchanged, field by field; what an edge can do to the parameters and to the
debounce registers. -/

section
variable (i : Instr) (k : Nat) (s : State)

@[simp] theorem microBody_cfg : (microBody i k s).cfg = s.cfg := by
  obtain ⟨h, -⟩ := microBody_frame i k s
  exact h

@[simp] theorem microBody_intake : (microBody i k s).intake = s.intake := by
  obtain ⟨-, h, -⟩ := microBody_frame i k s
  exact h

@[simp] theorem microBody_owner : (microBody i k s).seq.owner = s.seq.owner := by
  obtain ⟨-, -, -, h, -⟩ := microBody_frame i k s
  exact h

@[simp] theorem microBody_op : (microBody i k s).seq.op = s.seq.op := by
  obtain ⟨-, -, -, -, h, -⟩ := microBody_frame i k s
  exact h

@[simp] theorem microBody_step : (microBody i k s).seq.step = s.seq.step := by
  obtain ⟨-, -, -, -, -, h, -⟩ := microBody_frame i k s
  exact h

@[simp] theorem microBody_initCnt : (microBody i k s).seq.initCnt = s.seq.initCnt := by
  obtain ⟨-, -, -, -, -, -, h⟩ := microBody_frame i k s
  exact h

@[simp] theorem microBody_susp_valid : (microBody i k s).susp.valid = s.susp.valid := by
  rcases microBody_susp i k s with h | ⟨-, -, -, h⟩ <;> rw [h]
end

/-! ### Debounce registers -/

/-- What an edge can do to the debounce registers: nothing, record a sample, or update the edge masks (R253). -/
def DebChange (n : Nat) (d d' : Debounce) : Prop :=
  d' = d ∨ (∃ raw, d' = recordSample n raw d) ∨ d' = updateEdges d

theorem microBody_debChange (i : Instr) (k : Nat) (s : State) :
    DebChange s.cfg.nWin s.deb (microBody i k s).deb := by
  cases i with
  | nop => exact .inl rfl
  | record d => exact .inr (.inl ⟨d, rfl⟩)
  | keysample =>
    simp only [microBody]
    rcases keysampleStep_cases k s with
      ⟨_, h⟩ | ⟨_, h⟩ | ⟨_, h⟩ | ⟨_, h⟩ | ⟨_, _, _, h⟩ | ⟨_, _, _, h⟩ <;> rw [h]
    case inr.inr.inr.inl => exact .inr (.inl ⟨keysampleRaw s, rfl⟩)
    all_goals exact .inl rfl
  | dbread => exact .inl rfl
  | updedge => exact .inr (.inr rfl)
  | ledwrite d =>
    simp only [microBody]
    rcases ledwriteStep_cases k s d with
      ⟨_, h⟩ | ⟨_, h⟩ | ⟨_, h⟩ | ⟨_, _, h⟩ | ⟨_, _, h⟩ | ⟨_, _, h⟩ <;> rw [h] <;> exact .inl rfl
  | adcread c =>
    refine .inl ?_
    simp only [microBody]
    rcases adcreadStep_cases k s c with
      ⟨_, h⟩ | ⟨_, h⟩ | ⟨_, _, h⟩ | ⟨_, h⟩ | ⟨_, _, h⟩ | ⟨_, _, h⟩ | ⟨_, h⟩ <;> rw [h]
    case inr.inr.inr.inr.inr.inr => exact (adcFinal_fields s c).2.1
    all_goals simp
  | xfer d =>
    refine .inl ?_
    simp only [microBody]
    rcases xferStep_cases k s d with ⟨_, h⟩ | ⟨_, h⟩ <;> simp [h]

/-- The edge masks after an update have no bit in common (R127). -/
theorem updateEdges_masks_disjoint (d : Debounce) : (updateEdges d).down &&& (updateEdges d).up = 0 := by
  rw [updateEdges_down, updateEdges_up]
  ext i hi
  cases hp : d.prev[i] <;> cases hc : (foldAnd d.ring)[i] <;> simp [hp, hc]

/-- R24, R124 and R127 on the debounce registers of a block with n entries. -/
def DebOk (n : Nat) (d : Debounce) : Prop :=
  (d.ring.length = n ∧ d.pos.toNat < n) ∧ d.cur = d.prev ∧ d.down &&& d.up = 0

theorem DebOk.change {n : Nat} {d d' : Debounce} (h0 : 1 ≤ n) (h1 : n ≤ 128) (h : DebOk n d)
    (hc : DebChange n d d') : DebOk n d' := by
  obtain ⟨⟨hlen, hpos⟩, hcur, hmask⟩ := h
  rcases hc with rfl | ⟨raw, rfl⟩ | rfl
  · exact ⟨⟨hlen, hpos⟩, hcur, hmask⟩
  · exact ⟨recordSample_wf n raw d h0 h1 hlen, hcur, hmask⟩
  · exact ⟨⟨hlen, hpos⟩, rfl, updateEdges_masks_disjoint d⟩

/-- The window of a legal configuration has 1 to 128 entries (R7). -/
theorem nWin_bounds_of_legal {c : Config} (h : c.legal = true) : 1 ≤ c.nWin ∧ c.nWin ≤ 128 := by
  simp only [Config.legal, Config.windowOk, Bool.and_eq_true, decide_eq_true_eq] at h
  obtain ⟨⟨⟨hw, -⟩, -⟩, -⟩ := h
  exact hw

/-! ### What the sequencer can do -/

/-- The cases of an idle edge (R103, R192). -/
theorem startSelected_next {s t : State} (h : startSelected s = .next t) :
    (arbitrate s = .nothing ∧ t = s) ∨
    (arbitrate s = .ext ∧ t = grantExt s) ∨
    (arbitrate s = .init ∧ start .init (initWord s.seq.initCnt) s = .next t) ∨
    (arbitrate s = .tick ∧ start .tick tickWord (s.setTickPend false) = .next t) ∨
    (arbitrate s = .host ∧ start .host s.intake.cmdSlot (s.setCmdFull false) = .next t) := by
  unfold startSelected at h
  split at h <;> simp_all

/-- A start of an illegal word sets `ERR`; a start of a command does its micro-step 0 and keeps its word (R103,
R210). -/
theorem start_next {src : Owner} {w : Word} {s t : State} (h : start src w s = .next t) :
    ((∃ r, decode w = .error r) ∧ t = raiseIllegal s) ∨
      ∃ i, decode w = .ok i ∧
        t = keepWord i w (advance (stepsOf i) (microBody i 0 ((s.setOwner src).setStep 0))) := by
  rcases start_total src w s with ⟨r, hd, hs⟩ | ⟨i, hd, hs⟩ <;> rw [hs] at h <;> injection h with h
  · exact .inl ⟨⟨r, hd⟩, h.symm⟩
  · exact .inr ⟨i, hd, h.symm⟩

theorem start_cfg_deb {src : Owner} {w : Word} {s t : State} (h : start src w s = .next t) :
    t.cfg = s.cfg ∧ DebChange s.cfg.nWin s.deb t.deb := by
  rcases start_next h with ⟨-, rfl⟩ | ⟨i, -, rfl⟩
  · exact ⟨rfl, .inl rfl⟩
  · have hdeb := microBody_debChange i 0 ((s.setOwner src).setStep 0)
    exact ⟨by simp, by simpa using hdeb⟩

/-- The sequencer changes no parameter, and the debounce registers only in the ways of R253. -/
theorem sequencerEdge_cfg_deb {s t : State} (h : sequencerEdge s = .next t) :
    t.cfg = s.cfg ∧ DebChange s.cfg.nWin s.deb t.deb := by
  have same : s.cfg = s.cfg ∧ DebChange s.cfg.nWin s.deb s.deb := ⟨rfl, .inl rfl⟩
  rcases sequencerEdge_next h with ⟨-, hs⟩ | ⟨-, ht⟩ | ⟨-, hs⟩ | ⟨-, -, hs⟩
  · rcases startSelected_next hs with ⟨-, rfl⟩ | ⟨-, rfl⟩ | ⟨-, hs⟩ | ⟨-, hs⟩ | ⟨-, hs⟩
    · exact same
    · exact same
    · exact start_cfg_deb hs
    · exact (start_cfg_deb hs :)
    · exact (start_cfg_deb hs :)
  · rw [ht]
    split <;> exact same
  · exact (start_cfg_deb hs :)
  · obtain ⟨i, -, -, rfl⟩ := stepInProgress_next hs
    have hdeb := microBody_debChange i s.seq.step.toNat s
    exact ⟨by simp, by simpa using hdeb⟩
end Sys2Proof.Machine
end

section
namespace Sys2Proof.Machine

/-! SUPPORT. The control lines `KLD_R`, `LLAT_R` and `CS_R` along an operation (R254). -/

section
variable (k : Nat) (s : State)

/-- KEYSAMPLE drives `KLD_R` at its steps 1 and 2 and no other control line (R143). -/
theorem keysampleStep_lines :
    (keysampleStep k s).pinr.kld = (if k = 1 then false else if k = 2 then true else s.pinr.kld) ∧
      (keysampleStep k s).pinr.llat = s.pinr.llat ∧ (keysampleStep k s).pinr.cs = s.pinr.cs := by
  rcases keysampleStep_cases k s with
    ⟨rfl, e⟩ | ⟨rfl, e⟩ | ⟨rfl, e⟩ | ⟨rfl, e⟩ | ⟨h1, -, h2, e⟩ | ⟨-, h2, h0, e⟩ <;> rw [e]
  case inr.inr.inr.inr.inl => simp [h1, show k ≠ 2 by omega]
  case inr.inr.inr.inr.inr => simp [h2, show k ≠ 1 by omega]
  all_goals simp

/-- LEDWRITE drives `LLAT_R` at its steps 0, 25 and 26 and no other control line (R145). -/
theorem ledwriteStep_lines (d : Byte) :
    (ledwriteStep d k s).pinr.llat = (if k = 25 then true else if k = 0 ∨ k = 26 then false else s.pinr.llat) ∧
      (ledwriteStep d k s).pinr.kld = s.pinr.kld ∧ (ledwriteStep d k s).pinr.cs = s.pinr.cs := by
  rcases ledwriteStep_cases k s d with
    ⟨rfl, e⟩ | ⟨rfl, e⟩ | ⟨rfl, e⟩ | ⟨h25, hm, e⟩ | ⟨h26, hm, e⟩ | ⟨h0, hm, e⟩ <;> rw [e]
  case inr.inr.inr.inl => simp [h25, show ¬(k = 0 ∨ k = 26) by omega]
  case inr.inr.inr.inr.inl => simp [show k ≠ 25 by omega, show ¬(k = 0 ∨ k = 26) by omega]
  case inr.inr.inr.inr.inr => simp [show k ≠ 25 by omega, show ¬(k = 0 ∨ k = 26) by omega]
  all_goals simp

/-- ADCREAD drives `LLAT_R` at its step 0, `CS_R` at its steps 1 and 74, and no other control line (R171). -/
theorem adcreadStep_lines (c : Channel) :
    (adcreadStep c k s).pinr.cs = (if k = 1 then false else if 74 ≤ k then true else s.pinr.cs) ∧
      (adcreadStep c k s).pinr.llat = (if k = 0 then false else s.pinr.llat) ∧
      (adcreadStep c k s).pinr.kld = s.pinr.kld := by
  rcases adcreadStep_cases k s c with
    ⟨rfl, e⟩ | ⟨rfl, e⟩ | ⟨h, h', e⟩ | ⟨rfl, e⟩ | ⟨h, h', e⟩ | ⟨h, h', e⟩ | ⟨h, e⟩ <;> rw [e]
  case inr.inr.inr.inr.inr.inr =>
    obtain ⟨-, -, -, -, -, -, -, -, hp⟩ := adcFinal_fields s c
    simp [hp, h, show k ≠ 0 by omega, show k ≠ 1 by omega]
  case inr.inr.inl | inr.inr.inr.inr.inl | inr.inr.inr.inr.inr.inl =>
    simp [show k ≠ 0 by omega, show k ≠ 1 by omega, show ¬ 74 ≤ k by omega]
  all_goals simp

/-- XFER drives no control line (R140, R147). -/
theorem xferStep_lines (d : Byte) :
    (xferStep d k s).pinr.kld = s.pinr.kld ∧ (xferStep d k s).pinr.llat = s.pinr.llat ∧
      (xferStep d k s).pinr.cs = s.pinr.cs := by
  rcases xferStep_cases k s d with ⟨-, e⟩ | ⟨-, e⟩ <;> simp [e]

end

/-- `KLD_R`, `LLAT_R` and `CS_R` before micro-step k of the command i, k = `stepsOf i` being after its last (R254); held
says that a suspended ADCREAD keeps the converter selected meanwhile. -/
def LinesBefore (held : Bool) (i : Instr) (k : Nat) (p : PinRegs) : Prop :=
  (p.kld = false ↔ i = .keysample ∧ k = 2) ∧
  (p.llat = true ↔ opcOf (encode i) = 0x5 ∧ k = 26) ∧
  (p.cs = false ↔ (opcOf (encode i) = 0x6 ∧ 2 ≤ k ∧ k < 75) ∨ held = true)

/-- The levels of the control lines while no operation drives them (R254). -/
def LinesIdle (held : Bool) (p : PinRegs) : Prop := p.kld = true ∧ p.llat = false ∧ p.cs = !held

theorem linesBefore_zero {held : Bool} {i : Instr} {p : PinRegs} : LinesBefore held i 0 p ↔ LinesIdle held p := by
  simp [LinesBefore, LinesIdle]

theorem linesBefore_stepsOf {held : Bool} {i : Instr} {p : PinRegs} :
    LinesBefore held i (stepsOf i) p ↔ LinesIdle held p := by
  cases i <;> simp [LinesBefore, LinesIdle, stepsOf, encode]

/-- A micro-step takes the control lines from their levels before it to those before the next one (R143, R145, R171). -/
theorem microBody_linesBefore {held : Bool} {i : Instr} {k : Nat} {s : State} (hk : k < stepsOf i)
    (hheld : ∀ c, i = .adcread c → held = false) (h : LinesBefore held i k s.pinr) :
    LinesBefore held i (k + 1) (microBody i k s).pinr := by
  cases i with
  | nop => simpa [LinesBefore, microBody, encode] using h
  | record d => simpa [LinesBefore, microBody, encode] using h
  | keysample =>
    obtain ⟨ekld, ellat, ecs⟩ := keysampleStep_lines k s
    simp [LinesBefore, microBody, encode, ekld, ellat, ecs]  at h ⊢
    grind
  | dbread => simpa [LinesBefore, microBody, dbreadStep, encode] using h
  | updedge => simpa [LinesBefore, microBody, updedgeStep, encode] using h
  | ledwrite d =>
    obtain ⟨ekld, ellat, ecs⟩ := ledwriteStep_lines k s d
    simp [LinesBefore, microBody, encode, ekld, ellat, ecs]  at h ⊢
    grind
  | adcread c =>
    have hh := hheld c rfl
    obtain ⟨ekld, ellat, ecs⟩ := adcreadStep_lines k s c
    simp [LinesBefore, microBody, encode, ekld, ellat, ecs, hh, stepsOf]  at hk h ⊢
    grind
  | xfer d =>
    obtain ⟨ekld, ellat, ecs⟩ := xferStep_lines k s d
    simpa [LinesBefore, microBody, encode, ekld, ellat, ecs] using h
end Sys2Proof.Machine
end

section
namespace Sys2Proof.Machine

/-! SUPPORT. The invariant taken apart: its debounce half and its sequencer half, the latter at rest and with an
operation in progress. -/

/-! ### The two halves -/

/-- The half of the invariant that speaks of the sequencer, the suspended ADCREAD and the control lines. -/
def SeqInv (s : State) : Prop := seqOk s ∧ suspOk s ∧ linesOk s

theorem inv_iff {s : State} : Inv s ↔ s.cfg.legal = true ∧ DebOk s.cfg.nWin s.deb ∧ SeqInv s := by
  simp only [Inv, DebOk, SeqInv, and_assoc]

/-- The invariant reads no input level and of the intake only `EXT_GNT`. -/
theorem seqInv_afterEdge {s t : State} : SeqInv (afterEdge s t) ↔ SeqInv t := by
  unfold SeqInv seqOk suspOk linesOk ownerOk capturing latching converting State.suspended
  simp only [afterEdge_cfg, afterEdge_seq, afterEdge_susp, afterEdge_pinr, afterEdge_extGnt]

/-! ### Operations in progress -/

/-- A suspended ADCREAD that has selected the converter keeps it selected (R196, R254). -/
def selectHeld (s : State) : Bool := s.suspended && decide (2 ≤ s.susp.step.toNat)

theorem selectHeld_of_not_valid {s : State} (h : s.susp.valid = false) : selectHeld s = false := by
  simp [selectHeld, State.suspended, h]

/-- What `OWNER` says of the word w of its operation and of `INIT_CNT` (R103, R192). -/
def OwnerRuns (w : Word) (s : State) : Prop :=
  match s.seq.owner with
  | .none => False
  | .ext => False
  | .init => w = initWord s.seq.initCnt ∧ s.seq.initCnt.toNat < 4
  | .tick => w = tickWord ∧ s.seq.initCnt = 4
  | .host => s.seq.initCnt = 4

/-- The next micro-step is step `STEP` of the command i, whose word w is `OP`, or becomes it at this edge when the
operation starts (R103, R104). -/
structure AboutToRun (w : Word) (i : Instr) (s : State) : Prop where
  decoded : decode w = .ok i
  hasStep : s.seq.step.toNat < stepsOf i
  owner : OwnerRuns w s
  notGranted : s.intake.extGnt = false
  susp : suspOk (s.setOp w)
  lines : LinesBefore (selectHeld s) i s.seq.step.toNat s.pinr

theorem ne_ext_of_busy {o : Owner} (h : o.busy = true) : o ≠ .ext := by
  rintro rfl
  cases h

theorem inProgress_iff {op : Word} {k : BitVec 7} {i : Instr} (hd : decode op = .ok i) :
    inProgress op k = true ↔ 1 ≤ k.toNat ∧ k.toNat < stepsOf i := by
  simp [inProgress, hd]

theorem decode_of_inProgress {op : Word} {k : BitVec 7} (h : inProgress op k = true) : ∃ i, decode op = .ok i := by
  unfold inProgress at h
  split at h
  · exact ⟨_, ‹_›⟩
  · cases h

theorem OwnerRuns.busy {w : Word} {s : State} (h : OwnerRuns w s) : s.seq.owner.busy = true := by
  unfold OwnerRuns at h
  cases ho : s.seq.owner <;> simp_all [Owner.busy]

theorem OwnerRuns.initCnt_le {w : Word} {s : State} (h : OwnerRuns w s) : s.seq.initCnt.toNat ≤ 4 := by
  unfold OwnerRuns at h
  cases ho : s.seq.owner <;> simp [ho] at h
  · omega
  · simp [h.2]
  · simp [h]

theorem ownerOk_iff_of_busy {s : State} (hb : s.seq.owner.busy = true) :
    ownerOk s = true ↔ inProgress s.seq.op s.seq.step = true ∧ OwnerRuns s.seq.op s := by
  unfold ownerOk OwnerRuns
  cases ho : s.seq.owner <;> simp_all [Owner.busy, and_assoc]

/-- A word is the tick's word exactly when it is KEYSAMPLE's (R72, R74). -/
theorem eq_tickWord_iff {w : Word} {i : Instr} (hd : decode w = .ok i) : w = tickWord ↔ i = .keysample := by
  constructor
  · rintro rfl
    rw [decode_tickWord] at hd
    injection hd with hd
    exact hd.symm
  · rintro rfl
    exact (encode_of_decode hd).symm

theorem eq_not_iff_false_iff {b c : Bool} : b = !c ↔ (b = false ↔ c = true) := by
  cases b <;> cases c <;> simp

theorem linesOk_iff_of_busy {s : State} {i : Instr} (hb : s.seq.owner.busy = true) (hd : decode s.seq.op = .ok i)
    (hlt : s.seq.step.toNat < stepsOf i) :
    linesOk s ↔ LinesBefore (selectHeld s) i s.seq.step.toNat s.pinr := by
  have hop : opcOf s.seq.op = opcOf (encode i) := by rw [encode_of_decode hd]
  have h75 : s.seq.step.toNat < 75 := lt_of_lt_of_le hlt (stepsOf_le i)
  have hstep (n : BitVec 7) : s.seq.step = n ↔ s.seq.step.toNat = n.toNat := BitVec.toNat_inj.symm
  have hcap : capturing s = true ↔ i = .keysample ∧ s.seq.step.toNat = 2 := by
    simp [capturing, hb, eq_tickWord_iff hd, hstep]
  have hlatch : latching s = true ↔ opcOf (encode i) = 0x5 ∧ s.seq.step.toNat = 26 := by
    simp [latching, hb, hop, hstep]
  have hconv : converting s = true ↔
      (opcOf (encode i) = 0x6 ∧ 2 ≤ s.seq.step.toNat ∧ s.seq.step.toNat < 75) ∨ selectHeld s = true := by
    simp [converting, selectHeld, hb, hop, h75]
  unfold linesOk LinesBefore
  rw [eq_not_iff_false_iff, eq_not_iff_false_iff, Bool.eq_iff_iff (a := s.pinr.llat), hcap, hlatch, hconv]

theorem linesOk_iff_of_not_busy {s : State} (hb : s.seq.owner.busy = false) :
    linesOk s ↔ LinesIdle (selectHeld s) s.pinr := by
  simp [linesOk, LinesIdle, capturing, latching, converting, selectHeld, hb]

/-! ### The invariant at rest and in operation -/

/-- Nothing is suspended or corrupted and every control line is idle. -/
structure AtRest (s : State) : Prop where
  guarded : s.cfg.adcGuarded = true → s.susp = Suspended.reset
  notSuspended : s.susp.valid = false
  notCorrupt : s.susp.adcCorrupt = false
  lines : LinesIdle false s.pinr

theorem seqInv_iff_of_not_busy {s : State} (hb : s.seq.owner.busy = false) :
    SeqInv s ↔
      s.seq.step = 0 ∧ s.seq.initCnt.toNat ≤ 4 ∧ (s.intake.extGnt = true ↔ s.seq.owner = .ext) ∧ AtRest s := by
  have hno : s.seq.owner ≠ .tick ∧ s.seq.owner ≠ .host := by
    constructor <;> (intro ho; rw [ho] at hb; cases hb)
  have hok : ownerOk s = true ↔ s.seq.step = 0 := by
    unfold ownerOk
    cases ho : s.seq.owner <;> simp_all [Owner.busy]
  unfold SeqInv seqOk suspOk
  rw [hok, linesOk_iff_of_not_busy hb]
  constructor
  · rintro ⟨⟨hstep, hcnt, hgnt⟩, ⟨hguard, hvalid, hcorrupt⟩, hlines⟩
    have hv : s.susp.valid = false := by
      rw [← Bool.not_eq_true]
      exact fun hv => hno.1 (hvalid hv).1
    have hc : s.susp.adcCorrupt = false := by
      rw [← Bool.not_eq_true]
      intro hc
      rcases hcorrupt hc with h | ⟨h, -⟩
      · simp [hv] at h
      · exact hno.2 h
    exact ⟨hstep, hcnt, hgnt, hguard, hv, hc, by rwa [selectHeld_of_not_valid hv] at hlines⟩
  · rintro ⟨hstep, hcnt, hgnt, hguard, hv, hc, hlines⟩
    exact ⟨⟨hstep, hcnt, hgnt⟩, ⟨hguard, by simp [hv], by simp [hc]⟩, by rwa [selectHeld_of_not_valid hv]⟩

theorem AboutToRun.of_seqInv {s : State} (hb : s.seq.owner.busy = true) (h : SeqInv s) :
    ∃ i, 1 ≤ s.seq.step.toNat ∧ AboutToRun s.seq.op i s := by
  obtain ⟨⟨hown, -, hgnt⟩, hsusp, hlines⟩ := h
  obtain ⟨hprog, hruns⟩ := (ownerOk_iff_of_busy hb).1 hown
  obtain ⟨i, hd⟩ := decode_of_inProgress hprog
  obtain ⟨h1, hlt⟩ := (inProgress_iff hd).1 hprog
  refine ⟨i, h1, hd, hlt, hruns, ?_, hsusp, (linesOk_iff_of_busy hb hd hlt).1 hlines⟩
  rw [← Bool.not_eq_true, hgnt]
  exact ne_ext_of_busy hb

/-- An operation whose word is now `OP` is in progress from its step 1 on (R103, R104). -/
theorem AboutToRun.seqInv {w : Word} {i : Instr} {s : State} (h : AboutToRun w i s) (h1 : 1 ≤ s.seq.step.toNat) :
    SeqInv (s.setOp w) := by
  obtain ⟨hd, hlt, hruns, hgnt, hsusp, hlines⟩ := h
  have hb := hruns.busy
  exact ⟨⟨(ownerOk_iff_of_busy (s := s.setOp w) hb).2 ⟨(inProgress_iff hd).2 ⟨h1, hlt⟩, hruns⟩, hruns.initCnt_le,
    by simp [hgnt, ne_ext_of_busy hb]⟩, hsusp, (linesOk_iff_of_busy (s := s.setOp w) hb hd hlt).2 hlines⟩

end Sys2Proof.Machine
end

section
namespace Sys2Proof.Machine

/-! SUPPORT. Every part of an edge keeps the invariant; O43. -/

theorem AtRest.congr {s t : State} (h : AtRest s) (hcfg : t.cfg = s.cfg) (hsusp : t.susp = s.susp)
    (hpinr : t.pinr = s.pinr) : AtRest t := by
  obtain ⟨hguard, hv, hc, hlines⟩ := h
  exact ⟨by rwa [hcfg, hsusp], by rwa [hsusp], by rwa [hsusp], by rwa [hpinr]⟩

/-- Operation code 6 is ADCREAD's (R72). -/
theorem opcOf_encode_eq_six {i : Instr} : opcOf (encode i) = 0x6 ↔ ∃ c, i = .adcread c := by
  cases i <;> simp [encode]

theorem linesBefore_adcread {c : Channel} {k : Nat} {p : PinRegs} (hk : k < 75) :
    LinesBefore false (.adcread c) k p ↔ LinesIdle (decide (2 ≤ k)) p := by
  simp [LinesBefore, LinesIdle, encode, hk]
  cases p.cs <;> simp

/-- A micro-step before the last one leaves the preemption registers unchanged. -/
theorem microBody_susp_of_lt {i : Instr} {k : Nat} {s : State} (hk : k + 1 < stepsOf i) :
    (microBody i k s).susp = s.susp := by
  rcases microBody_susp i k s with h | ⟨c, rfl, h74, -⟩
  · exact h
  · simp only [stepsOf] at hk
    omega

/-- While an ADCREAD is suspended the operation is the tick's KEYSAMPLE (R195). -/
theorem AboutToRun.of_suspended {w : Word} {i : Instr} {s : State} (h : AboutToRun w i s)
    (hv : s.susp.valid = true) : s.seq.owner = .tick ∧ i = .keysample := by
  obtain ⟨-, hvalid, -⟩ := h.susp
  obtain ⟨ho, -⟩ := hvalid hv
  replace ho : s.seq.owner = .tick := ho
  have hown := h.owner
  simp only [OwnerRuns, ho] at hown
  exact ⟨ho, (eq_tickWord_iff h.decoded).1 hown.1⟩

/-- A block with `ADC_GUARDED = true` never leaves the reset values of the preemption registers (R27). -/
theorem AboutToRun.not_guarded {w : Word} {i : Instr} {s : State} (h : AboutToRun w i s)
    (hs : s.susp ≠ Suspended.reset) : s.cfg.adcGuarded = false := by
  obtain ⟨hguard, -⟩ := h.susp
  rw [← Bool.not_eq_true]
  exact fun hg => hs (hguard hg)

theorem AboutToRun.linesAfter {w : Word} {i : Instr} {s : State} (h : AboutToRun w i s) :
    LinesBefore (selectHeld s) i (s.seq.step.toNat + 1) (microBody i s.seq.step.toNat s).pinr := by
  refine microBody_linesBefore h.hasStep (fun c hi => ?_) h.lines
  rw [← Bool.not_eq_true]
  intro hheld
  simp only [selectHeld, State.suspended, Bool.and_eq_true] at hheld
  obtain ⟨⟨-, hv⟩, -⟩ := hheld
  have hk := (h.of_suspended hv).2
  rw [hi] at hk
  cases hk

/-- A micro-step that is not the last leaves the operation at its next one. -/
theorem AboutToRun.next {w : Word} {i : Instr} {s : State} (h : AboutToRun w i s)
    (hlt : s.seq.step.toNat + 1 < stepsOf i) :
    AboutToRun w i ((microBody i s.seq.step.toNat s).setStep (s.seq.step + 1)) := by
  have hsusp := microBody_susp_of_lt (s := s) hlt
  have hstep : (s.seq.step + 1).toNat = s.seq.step.toNat + 1 := by
    have := stepsOf_le i
    bv_omega
  refine ⟨h.decoded, ?_, ?_, ?_, ?_, ?_⟩
  · rwa [State.setStep_seq_step, hstep]
  · simpa [OwnerRuns] using h.owner
  · simpa using h.notGranted
  · simpa [suspOk, hsusp] using h.susp
  · rw [State.setStep_seq_step, hstep]
    simpa [selectHeld, State.suspended, hsusp] using h.linesAfter

/-- ADCREAD's last micro-step clears the mark of a corrupted conversion (R171). -/
theorem adcread_last_susp (c : Channel) (s : State) :
    (microBody (.adcread c) 74 s).susp =
      { s.susp with adcCorrupt := if s.corrupt then false else s.susp.adcCorrupt } := by
  obtain ⟨-, -, -, -, -, hsusp, -⟩ := adcFinal_fields s c
  exact hsusp

/-- The last micro-step of an operation that holds nothing suspended leaves nothing to undo: a corrupted conversion
clears its mark there (R171), and every line is idle (R254). -/
theorem AboutToRun.atRest_of_last {w : Word} {i : Instr} {s : State} (h : AboutToRun w i s)
    (hlast : s.seq.step.toNat + 1 = stepsOf i) (hv : s.susp.valid = false) :
    AtRest (microBody i s.seq.step.toNat s) := by
  obtain ⟨hguard, -, hcorrupt⟩ := h.susp
  replace hguard : s.cfg.adcGuarded = true → s.susp = Suspended.reset := hguard
  have hlines := h.linesAfter
  rw [hlast, linesBefore_stepsOf, selectHeld_of_not_valid hv] at hlines
  cases hc : s.susp.adcCorrupt with
  | false =>
    have hsusp : (microBody i s.seq.step.toNat s).susp = s.susp := by
      rcases microBody_susp i s.seq.step.toNat s with hs | ⟨-, -, -, hs⟩
      · exact hs
      · simp [hs, ← hc]
    exact ⟨by rwa [microBody_cfg, hsusp], by rwa [hsusp], by rwa [hsusp], hlines⟩
  | true =>
    have hop : opcOf w = 0x6 := by
      rcases hcorrupt hc with hvalid | ⟨-, hop⟩
      · rw [show (s.setOp w).susp.valid = s.susp.valid from rfl, hv] at hvalid
        cases hvalid
      · exact hop
    obtain ⟨c, rfl⟩ := opcOf_encode_eq_six.1 (encode_of_decode h.decoded ▸ hop)
    have hk : s.seq.step.toNat = 74 := by simpa [stepsOf] using hlast
    have hng := h.not_guarded fun e => by simp [e, Suspended.reset] at hc
    rw [hk] at hlines ⊢
    have hsusp := adcread_last_susp c s
    exact ⟨by simp [hng], by simpa using hv, by simp [hsusp, State.corrupt, hng, hc], hlines⟩

/-- A suspended ADCREAD that is resumed is in progress again (R196). -/
theorem seqInv_resume {b : State} (hng : b.cfg.adcGuarded = false) (howner : b.susp.owner = .host)
    (hop : opcOf b.susp.op = 0x6) (hprog : inProgress b.susp.op b.susp.step = true) (hcnt : b.seq.initCnt = 4)
    (hgnt : b.intake.extGnt = false) (hlines : LinesIdle (decide (2 ≤ b.susp.step.toNat)) b.pinr) :
    SeqInv (resume b) := by
  obtain ⟨i, hd⟩ := decode_of_inProgress hprog
  obtain ⟨h1, hlt⟩ := (inProgress_iff hd).1 hprog
  obtain ⟨c, rfl⟩ := opcOf_encode_eq_six.1 (encode_of_decode hd ▸ hop)
  have hrun : AboutToRun b.susp.op (.adcread c) (resume b) := by
    refine ⟨hd, hlt, ?_, hgnt, ?_, ?_⟩
    · simpa [OwnerRuns, resume, howner] using hcnt
    · simp [suspOk, resume, hng, howner, hop]
    · rw [selectHeld_of_not_valid (show (resume b).susp.valid = false from rfl)]
      exact (linesBefore_adcread hlt).2 hlines
  exact hrun.seqInv h1

/-- Where the tick's KEYSAMPLE preempted an ADCREAD, its end hands the lines back to it (R196). -/
theorem AboutToRun.resume_seqInv {w : Word} {i : Instr} {s : State} (h : AboutToRun w i s)
    (hlast : s.seq.step.toNat + 1 = stepsOf i) (hng : s.cfg.adcGuarded = false) (hv : s.susp.valid = true) :
    SeqInv (resume (((microBody i s.seq.step.toNat s).setOwner .none).setStep 0)) := by
  obtain ⟨-, hvalid, -⟩ := h.susp
  obtain ⟨-, hsown, hsop, hsprog, -⟩ := hvalid hv
  obtain ⟨ho, rfl⟩ := h.of_suspended hv
  have hsusp : (microBody .keysample s.seq.step.toNat s).susp = s.susp := by
    rcases microBody_susp .keysample s.seq.step.toNat s with e | ⟨c, e, -⟩
    · exact e
    · cases e
  have hinit : s.seq.initCnt = 4 := by
    have hown := h.owner
    simp only [OwnerRuns, ho] at hown
    exact hown.2
  have hlines := h.linesAfter
  rw [hlast, linesBefore_stepsOf] at hlines
  apply seqInv_resume
  · simpa using hng
  · simpa [hsusp] using hsown
  · simpa [hsusp] using hsop
  · simpa [hsusp] using hsprog
  · simpa using hinit
  · simpa using h.notGranted
  · simpa [hsusp, selectHeld, State.suspended, hng, hv] using hlines

/-- The last micro-step of an operation and the return after it keep the invariant (R104, R215). -/
theorem AboutToRun.finish_seqInv {w : Word} {i : Instr} {s : State} (h : AboutToRun w i s)
    (hlast : s.seq.step.toNat + 1 = stepsOf i) : SeqInv (finish (microBody i s.seq.step.toNat s)) := by
  have hgnt := h.notGranted
  have hown := h.owner
  have hcnt4 := hown.initCnt_le
  cases hv : s.susp.valid with
  | true =>
    obtain ⟨ho, -⟩ := h.of_suspended hv
    have hng := h.not_guarded fun e => by simp [e, Suspended.reset] at hv
    have hs : (microBody i s.seq.step.toNat s).suspended = true := by
      simp [State.suspended, hng, hv]
    rcases finish_cases (microBody i s.seq.step.toNat s) with ⟨ho', -⟩ | ⟨-, -, e⟩ | ⟨-, hn, -⟩
    · rw [microBody_owner, ho] at ho'
      cases ho'
    · rw [e]
      exact h.resume_seqInv hlast hng hv
    · exact absurd ⟨(microBody_owner ..).trans ho, hs⟩ hn
  | false =>
    have hrest := h.atRest_of_last hlast hv
    rcases finish_cases (microBody i s.seq.step.toNat s) with ⟨ho, e⟩ | ⟨-, hs, -⟩ | ⟨-, -, e⟩
    · rw [microBody_owner] at ho
      simp only [OwnerRuns, ho] at hown
      rw [e, seqInv_iff_of_not_busy rfl]
      refine ⟨rfl, ?_, by simp [hgnt], hrest.congr rfl rfl rfl⟩
      rw [State.setInitCnt_seq_initCnt, microBody_initCnt]
      bv_omega
    · simp [State.suspended, hv] at hs
    · rw [e, seqInv_iff_of_not_busy rfl]
      exact ⟨rfl, by simpa using hcnt4, by simp [hgnt], hrest.congr rfl rfl rfl⟩

theorem AboutToRun.advance_last_seqInv {w : Word} {i : Instr} {s : State} (h : AboutToRun w i s)
    (hlast : s.seq.step.toNat + 1 = stepsOf i) :
    SeqInv (advance (stepsOf i) (microBody i s.seq.step.toNat s)) := by
  unfold advance
  rw [microBody_step, if_pos hlast]
  exact h.finish_seqInv hlast

theorem AboutToRun.advance_seqInv {w : Word} {i : Instr} {s : State} (h : AboutToRun w i s)
    (hlt : s.seq.step.toNat + 1 < stepsOf i) :
    SeqInv ((advance (stepsOf i) (microBody i s.seq.step.toNat s)).setOp w) := by
  have h1 : 1 ≤ (s.seq.step + 1).toNat := by
    have := stepsOf_le i
    bv_omega
  unfold advance
  rw [microBody_step, if_neg (by omega)]
  exact (h.next hlt).seqInv h1

/-! ### The invariant along an edge -/

/-- A micro-step of the operation in progress, and the bookkeeping after it, keep the invariant (R104). -/
theorem stepInProgress_seqInv {s t : State} (hb : s.seq.owner.busy = true) (hinv : SeqInv s)
    (h : stepInProgress s = .next t) : SeqInv t := by
  obtain ⟨i, h1, hrun⟩ := AboutToRun.of_seqInv hb hinv
  obtain ⟨j, hd, hlt, rfl⟩ := stepInProgress_next h
  obtain rfl : j = i := by simpa [hd] using hrun.decoded
  rcases Nat.eq_or_lt_of_le hlt with hlast | hlt
  · exact hrun.advance_last_seqInv hlast
  · have hop : (advance (stepsOf j) (microBody j s.seq.step.toNat s)).seq.op = s.seq.op := by
      unfold advance
      rw [microBody_step, if_neg (by omega)]
      exact microBody_op ..
    have hnext := hrun.advance_seqInv hlt
    rwa [← hop] at hnext

/-- Starting an operation keeps the invariant (R103). -/
theorem AboutToRun.start_seqInv {src : Owner} {w : Word} {i : Instr} {s t : State}
    (hrun : AboutToRun w i ((s.setOwner src).setStep 0)) (h : start src w s = .next t) : SeqInv t := by
  rcases start_next h with ⟨⟨r, hd⟩, -⟩ | ⟨j, hd, rfl⟩
  · simp [hrun.decoded] at hd
  obtain rfl : j = i := by simpa [hd] using hrun.decoded
  have hpos := stepsOf_pos j
  unfold keepWord
  split_ifs with h1
  · exact hrun.advance_last_seqInv h1.symm
  · exact hrun.advance_seqInv (show 0 + 1 < stepsOf j by omega)

/-- An idle block starts its operation from rest. -/
theorem AboutToRun.of_rest {src : Owner} {w : Word} {i : Instr} {s : State} (hd : decode w = .ok i)
    (hgnt : s.intake.extGnt = false) (hrest : AtRest s) (hown : OwnerRuns w (s.setOwner src)) :
    AboutToRun w i ((s.setOwner src).setStep 0) := by
  obtain ⟨hguard, hv, hc, hlines⟩ := hrest
  refine ⟨hd, stepsOf_pos i, hown, hgnt, ⟨hguard, ?_, ?_⟩, ?_⟩
  · simp [hv]
  · simp [hc]
  · rw [selectHeld_of_not_valid (show ((s.setOwner src).setStep 0).susp.valid = false from hv)]
    exact linesBefore_zero.2 hlines

/-- INIT is selected only while a conversion is left to do (R192). -/
theorem initCnt_lt_of_arbitrate_init {s : State} (h : arbitrate s = .init) : s.seq.initCnt.toNat < 4 := by
  rcases arbitrate_cases s with ⟨e, -⟩ | ⟨-, -, hcnt⟩ | ⟨e, -⟩ | ⟨e, -⟩ | ⟨e, -⟩
  case inr.inl => exact hcnt
  all_goals
    rw [h] at e
    cases e

/-- A tick or a command is selected only when INIT is done (R192). -/
theorem initCnt_ge_of_arbitrate {s : State} (h : arbitrate s = .tick ∨ arbitrate s = .host) :
    4 ≤ s.seq.initCnt.toNat := by
  rcases arbitrate_cases s with ⟨e, -⟩ | ⟨e, -⟩ | ⟨-, -, hcnt, -⟩ | ⟨-, -, hcnt, -⟩ | ⟨-, -, hcnt, -⟩
  case inl | inr.inl => simp [e] at h
  all_goals exact hcnt

/-- An idle edge keeps the invariant, whatever it selects (R103, R192). -/
theorem startSelected_seqInv {s t : State} (ho : s.seq.owner = .none) (hinv : SeqInv s)
    (h : startSelected s = .next t) : SeqInv t := by
  obtain ⟨hstep, hcnt, hgnt, hrest⟩ := (seqInv_iff_of_not_busy (by simp [ho, Owner.busy])).1 hinv
  replace hgnt : s.intake.extGnt = false := by simpa [ho] using hgnt
  have hinit : 4 ≤ s.seq.initCnt.toNat → s.seq.initCnt = 4 := fun h4 => by bv_omega
  rcases startSelected_next h with ⟨-, rfl⟩ | ⟨-, rfl⟩ | ⟨ha, hs⟩ | ⟨ha, hs⟩ | ⟨ha, hs⟩
  · exact hinv
  · exact (seqInv_iff_of_not_busy rfl).2 ⟨hstep, hcnt, by simp [grantExt], hrest.congr rfl rfl rfl⟩
  · have hlt := initCnt_lt_of_arbitrate_init ha
    exact (AboutToRun.of_rest (src := .init) (decode_initWord _ hlt) hgnt hrest ⟨rfl, hlt⟩).start_seqInv hs
  · have h4 := initCnt_ge_of_arbitrate (.inl ha)
    exact (AboutToRun.of_rest (src := .tick) (s := s.setTickPend false) decode_tickWord hgnt (hrest.congr rfl rfl rfl)
      ⟨rfl, hinit h4⟩).start_seqInv hs
  · have h4 := initCnt_ge_of_arbitrate (.inr ha)
    rcases start_next hs with ⟨-, rfl⟩ | ⟨i, hd, -⟩
    · exact hinv
    · exact (AboutToRun.of_rest (src := .host) (s := s.setCmdFull false) hd hgnt (hrest.congr rfl rfl rfl)
        (hinit h4)).start_seqInv hs

/-- The tick's KEYSAMPLE that preempts an ADCREAD starts with the ADCREAD saved (R195). -/
theorem AboutToRun.of_preempt {c : Channel} {s : State} (hrun : AboutToRun s.seq.op (.adcread c) s)
    (h1 : 1 ≤ s.seq.step.toNat) (ho : s.seq.owner = .host) (hng : s.cfg.adcGuarded = false)
    (hs : s.suspended = false) :
    AboutToRun tickWord .keysample (((suspend s).setOwner .tick).setStep 0) := by
  obtain ⟨hd, hlt, hown, hgnt, -, hlines⟩ := hrun
  have hprog := (inProgress_iff hd).2 ⟨h1, hlt⟩
  have hop : opcOf s.seq.op = 0x6 := by
    rw [← encode_of_decode hd]
    exact opcOf_encode_eq_six.2 ⟨c, rfl⟩
  rw [show selectHeld s = false by simp [selectHeld, hs], linesBefore_adcread hlt] at hlines
  simp only [OwnerRuns, ho] at hown
  have hheld : selectHeld (((suspend s).setOwner .tick).setStep 0) = decide (2 ≤ s.seq.step.toNat) := by
    show (!s.cfg.adcGuarded && true && decide (2 ≤ s.seq.step.toNat)) = _
    rw [hng]
    rfl
  refine ⟨decode_tickWord, stepsOf_pos _, ⟨rfl, hown⟩, hgnt, ?_, ?_⟩
  · simp [suspOk, suspend, hng, ho, hop, hprog]
  · refine linesBefore_zero.2 ?_
    rw [hheld]
    exact hlines

/-- A preemption keeps the invariant (R195). -/
theorem preempt_seqInv {s t : State} (hinv : SeqInv s) (hp : preemptCondition s = true)
    (h : preempt s = .next t) : SeqInv t := by
  obtain ⟨hng, ho, hop, hs, -⟩ := (preemptCondition_iff s).1 hp
  obtain ⟨i, h1, hrun⟩ := AboutToRun.of_seqInv (by simp [ho, Owner.busy]) hinv
  obtain ⟨c, rfl⟩ := opcOf_encode_eq_six.1 (encode_of_decode hrun.decoded ▸ hop)
  exact (hrun.of_preempt h1 ho hng hs).start_seqInv h

/-- The sequencer's part of an edge keeps its half of the invariant. -/
theorem sequencerEdge_seqInv {s t : State} (hinv : SeqInv s) (h : sequencerEdge s = .next t) : SeqInv t := by
  rcases sequencerEdge_next h with ⟨ho, hs⟩ | ⟨ho, rfl⟩ | ⟨hp, hs⟩ | ⟨hb, -, hs⟩
  · exact startSelected_seqInv ho hinv hs
  · split
    · exact hinv
    · obtain ⟨hstep, hcnt, -, hrest⟩ := (seqInv_iff_of_not_busy (by simp [ho, Owner.busy])).1 hinv
      exact (seqInv_iff_of_not_busy rfl).2 ⟨hstep, hcnt, by simp [releaseExt], hrest.congr rfl rfl rfl⟩
  · exact preempt_seqInv hinv hp hs
  · exact stepInProgress_seqInv hb hinv hs

/-- The reset state of a legal block meets the invariant (R240). -/
theorem inv_resetWith {c : Config} (e : Env) (h : c.legal = true) : Inv (.resetWith c e) := by
  obtain ⟨h0, -⟩ := nWin_bounds_of_legal h
  refine inv_iff.2 ⟨h, ⟨⟨List.length_replicate, h0⟩, rfl, (by decide : (0 : Byte) &&& 0 = 0)⟩, ?_⟩
  exact (seqInv_iff_of_not_busy rfl).2 ⟨rfl, (by decide : (0 : BitVec 3).toNat ≤ 4),
    (by decide : false = true ↔ Owner.none = Owner.ext), ⟨fun _ => rfl, rfl, rfl, rfl, rfl, rfl⟩⟩

/-- Settles O43: a reset edge leaves the reset state; at any other edge the sequencer keeps its half of the
invariant and changes the debounce registers only by a sample or an update, and the other events touch neither half.
-/
theorem stepKeepsTheInvariant : Obligations.StepKeepsTheInvariant := by
  intro s t hinv h
  obtain ⟨hlegal, hdeb, hseq⟩ := inv_iff.1 hinv
  rcases (step_next h).2 with ⟨-, rfl⟩ | ⟨-, u, hu, rfl⟩
  · exact inv_resetWith _ hlegal
  · obtain ⟨h0, h1⟩ := nWin_bounds_of_legal hlegal
    obtain ⟨hcfg, hchange⟩ := sequencerEdge_cfg_deb hu
    refine inv_iff.2 ⟨?_, ?_, seqInv_afterEdge.2 (sequencerEdge_seqInv hseq hu)⟩
    · rwa [afterEdge_cfg, hcfg]
    · rw [afterEdge_cfg, afterEdge_deb, hcfg]
      exact hdeb.change h0 h1 hchange

end Sys2Proof.Machine
end

section
namespace Sys2Proof.Machine

open Host (Outcome)

/-! SUPPORT. Which input levels a step reads, and the words a host reads; O53, O54, O55, O58. -/

/-! ### Which input levels an operation reads -/

/-- The micro-steps that read `rotate_i`: KEYSAMPLE's step 19 and LEDWRITE's step 0 (R142, R218). -/
def readsRotate (i : Instr) (k : Nat) : Prop := (i = .keysample ∧ k = 19) ∨ (opcOf (encode i) = 0x5 ∧ k = 0)

section
variable {p : Inputs} {s : State}

theorem permGate_withLevels (hrot : p.rotate = s.env.pins.rotate) : permGate (withLevels p s) = permGate s := by
  simp [permGate, hrot]

theorem keysampleStep_withLevels (k : Nat) (hdata : p.dataI = s.env.pins.dataI)
    (hrot : k = 19 → p.rotate = s.env.pins.rotate) :
    keysampleStep k (withLevels p s) = withLevels p (keysampleStep k s) := by
  unfold keysampleStep
  split_ifs with h0 h1 h2 h19 hodd
  case pos => rfl
  case pos => rfl
  case pos => rfl
  case pos =>
    have hraw : keysampleRaw (withLevels p s) = keysampleRaw s := by
      unfold keysampleRaw readMapped
      rw [permGate_withLevels (hrot h19)]
      rfl
    rw [hraw]
    rfl
  case pos => rfl
  case neg =>
    rw [withLevels_pins, hdata]
    rfl

theorem ledwriteStep_withLevels (d : Byte) (k : Nat) (hrot : k = 0 → p.rotate = s.env.pins.rotate) :
    ledwriteStep d k (withLevels p s) = withLevels p (ledwriteStep d k s) := by
  unfold ledwriteStep
  split_ifs with h0
  case pos =>
    have hmap : writeMapped (withLevels p s) d = writeMapped s d := by
      unfold writeMapped
      rw [permGate_withLevels (hrot h0)]
      rfl
    rw [hmap]
    rfl
  all_goals rfl

theorem received_withLevels (hsdi : p.sdi = s.env.pins.sdi) : received (withLevels p s) = received s := by
  simp [received, hsdi]

theorem xchg_withLevels (b : Byte) (k : Nat) (hsdi : p.sdi = s.env.pins.sdi) :
    xchg b k (withLevels p s) = withLevels p (xchg b k s) := by
  unfold xchg
  rw [received_withLevels hsdi]
  split_ifs <;> rfl

theorem xferStep_withLevels (d : Byte) (k : Nat) (hsdi : p.sdi = s.env.pins.sdi) :
    xferStep d k (withLevels p s) = withLevels p (xferStep d k s) := by
  unfold xferStep
  rw [xchg_withLevels d k hsdi, received_withLevels hsdi]
  split_ifs <;> rfl

theorem adcFinal_withLevels (c : Channel) : adcFinal c (withLevels p s) = withLevels p (adcFinal c s) := by
  have hv : conversionValue (withLevels p s) = conversionValue s := rfl
  have hc : (withLevels p s).corrupt = s.corrupt := rfl
  unfold adcFinal
  rw [hv, hc]
  cases s.corrupt <;> by_cases ho : s.seq.owner = .host <;> simp [ho] <;> rfl

theorem adcreadStep_withLevels (c : Channel) (k : Nat) (hsdi : p.sdi = s.env.pins.sdi) :
    adcreadStep c k (withLevels p s) = withLevels p (adcreadStep c k s) := by
  unfold adcreadStep
  simp only [withLevels_cfg, xchg_withLevels _ _ hsdi, received_withLevels hsdi, adcFinal_withLevels]
  split_ifs <;> rfl

/-- Of the input levels a micro-step reads only `data_i`, `sdi_i` and, at two steps, `rotate_i` (R140, R142, R143). -/
theorem microBody_withLevels (i : Instr) (k : Nat) (hdata : p.dataI = s.env.pins.dataI)
    (hsdi : p.sdi = s.env.pins.sdi) (hrot : readsRotate i k → p.rotate = s.env.pins.rotate) :
    microBody i k (withLevels p s) = withLevels p (microBody i k s) := by
  cases i with
  | nop => rfl
  | record d => rfl
  | keysample => exact keysampleStep_withLevels k hdata fun hk => hrot (.inl ⟨rfl, hk⟩)
  | dbread => rfl
  | updedge => rfl
  | ledwrite d => exact ledwriteStep_withLevels d k fun hk => hrot (.inr ⟨by simp [encode], hk⟩)
  | adcread c => exact adcreadStep_withLevels c k hsdi
  | xfer d => exact xferStep_withLevels d k hsdi

end

section
variable (p : Inputs) (s : State)

theorem finish_withLevels : finish (withLevels p s) = withLevels p (finish s) := by
  have hs : (withLevels p s).suspended = s.suspended := rfl
  unfold finish
  rw [hs]
  cases ho : s.seq.owner <;> cases s.suspended <;> simp [ho] <;> rfl

theorem advance_withLevels (n : Nat) : advance n (withLevels p s) = withLevels p (advance n s) := by
  unfold advance
  rw [finish_withLevels]
  split_ifs <;> simp_all
  rfl

theorem keepWord_withLevels (i : Instr) (w : Word) : keepWord i w (withLevels p s) = withLevels p (keepWord i w s) := by
  unfold keepWord
  split <;> rfl
end

theorem mapNext_mapNext (f g : State → State) (o : Outcome State Fault Refusal) :
    mapNext f (mapNext g o) = mapNext (fun t => f (g t)) o := by
  cases o <;> rfl

section
variable {p : Inputs} {s : State}

theorem exec_withLevels (i : Instr) (hdata : p.dataI = s.env.pins.dataI)
    (hsdi : p.sdi = s.env.pins.sdi) (hrot : readsRotate i s.seq.step.toNat → p.rotate = s.env.pins.rotate) :
    exec i (withLevels p s) = mapNext (withLevels p) (exec i s) := by
  rw [exec_eq_runMicro, exec_eq_runMicro]
  unfold runMicro
  rw [withLevels_seq, microBody_withLevels i _ hdata hsdi hrot, advance_withLevels]
  split_ifs <;> rfl

theorem start_withLevels (src : Owner) (w : Word) (hdata : p.dataI = s.env.pins.dataI)
    (hsdi : p.sdi = s.env.pins.sdi) (hrot : ∀ i, decode w = .ok i → readsRotate i 0 → p.rotate = s.env.pins.rotate) :
    start src w (withLevels p s) = mapNext (withLevels p) (start src w s) := by
  unfold start
  cases hd : decode w with
  | error r => rfl
  | ok i =>
    have he := exec_withLevels (p := p) (s := (s.setOwner src).setStep 0) i hdata hsdi (hrot i hd)
    show mapNext (keepWord i w) (exec i (withLevels p ((s.setOwner src).setStep 0))) =
      mapNext (withLevels p) (mapNext (keepWord i w) (exec i ((s.setOwner src).setStep 0)))
    rw [he, mapNext_mapNext, mapNext_mapNext]
    simp only [keepWord_withLevels]

/-- The block's own starts, INIT's ADCREAD and the tick's KEYSAMPLE, do not read `rotate_i`. -/
theorem not_readsRotate_tickWord {i : Instr} (hd : decode tickWord = .ok i) : ¬ readsRotate i 0 := by
  rw [decode_tickWord] at hd
  injection hd with hd
  simp [readsRotate, ← hd, encode]

theorem not_readsRotate_initWord {cnt : BitVec 3} {i : Instr} (hcnt : cnt.toNat < 4)
    (hd : decode (initWord cnt) = .ok i) : ¬ readsRotate i 0 := by
  rw [decode_initWord cnt hcnt] at hd
  injection hd with hd
  simp [readsRotate, ← hd, encode]

theorem arbitrate_withLevels (hext : p.extReq = s.env.pins.extReq) : arbitrate (withLevels p s) = arbitrate s := by
  unfold arbitrate
  rw [withLevels_pins, hext]
  rfl

theorem startSelected_withLevels (hdata : p.dataI = s.env.pins.dataI) (hsdi : p.sdi = s.env.pins.sdi)
    (hext : p.extReq = s.env.pins.extReq)
    (hrot : arbitrate s = .host → ∀ i, decode s.intake.cmdSlot = .ok i → readsRotate i 0 →
      p.rotate = s.env.pins.rotate) :
    startSelected (withLevels p s) = mapNext (withLevels p) (startSelected s) := by
  unfold startSelected
  rw [arbitrate_withLevels hext]
  cases ha : arbitrate s with
  | nothing => rfl
  | ext => rfl
  | init =>
    exact start_withLevels .init _ hdata hsdi fun i hd hr =>
      absurd hr (not_readsRotate_initWord (initCnt_lt_of_arbitrate_init ha) hd)
  | tick =>
    exact start_withLevels (s := s.setTickPend false) .tick _ hdata hsdi fun i hd hr =>
      absurd hr (not_readsRotate_tickWord hd)
  | host => exact start_withLevels (s := s.setCmdFull false) .host _ hdata hsdi (hrot ha)

theorem stepInProgress_withLevels (hdata : p.dataI = s.env.pins.dataI) (hsdi : p.sdi = s.env.pins.sdi)
    (hrot : ∀ i, decode s.seq.op = .ok i → readsRotate i s.seq.step.toNat → p.rotate = s.env.pins.rotate) :
    stepInProgress (withLevels p s) = mapNext (withLevels p) (stepInProgress s) := by
  unfold stepInProgress
  rw [withLevels_seq]
  cases hd : decode s.seq.op with
  | error r => rfl
  | ok i => exact exec_withLevels i hdata hsdi (hrot i hd)

/-- Of the input levels the sequencer's part of an edge reads only `data_i`, `sdi_i`, `ext_req_i` and, where a
micro-step that reads it is due, `rotate_i` (R218). -/
theorem sequencerEdge_withLevels (hdata : p.dataI = s.env.pins.dataI) (hsdi : p.sdi = s.env.pins.sdi)
    (hext : p.extReq = s.env.pins.extReq)
    (hbusy : s.seq.owner.busy = true → ∀ i, decode s.seq.op = .ok i → readsRotate i s.seq.step.toNat →
      p.rotate = s.env.pins.rotate)
    (hidle : s.seq.owner = .none → arbitrate s = .host → ∀ i, decode s.intake.cmdSlot = .ok i → readsRotate i 0 →
      p.rotate = s.env.pins.rotate) :
    sequencerEdge (withLevels p s) = mapNext (withLevels p) (sequencerEdge s) := by
  have hprog : s.seq.owner.busy = true →
      stepInProgress (withLevels p s) = mapNext (withLevels p) (stepInProgress s) := fun hb =>
    stepInProgress_withLevels hdata hsdi (hbusy hb)
  have hpre : preempt (withLevels p s) = mapNext (withLevels p) (preempt s) :=
    start_withLevels (s := suspend s) .tick tickWord hdata hsdi fun i hd hr =>
      absurd hr (not_readsRotate_tickWord hd)
  have hcond : preemptCondition (withLevels p s) = preemptCondition s := rfl
  unfold sequencerEdge
  rw [withLevels_seq, hcond]
  cases ho : s.seq.owner with
  | none => exact startSelected_withLevels hdata hsdi hext (hidle ho)
  | ext =>
    rw [withLevels_pins, hext]
    cases s.env.pins.extReq <;> rfl
  | init => exact hprog (by simp [ho, Owner.busy])
  | tick => exact hprog (by simp [ho, Owner.busy])
  | host =>
    cases preemptCondition s with
    | true => exact hpre
    | false => exact hprog (by simp [ho, Owner.busy])

/-- The other events of an edge read of the input levels only those of the intake and `sample_tick_i`, and the next
cycle's levels replace them all. -/
theorem afterEdge_withLevels (t : State) (hvalid : p.cmdValid = s.env.pins.cmdValid)
    (hword : p.cmdWord = s.env.pins.cmdWord) (htick : p.sampleTick = s.env.pins.sampleTick) :
    afterEdge (withLevels p s) (withLevels p t) = afterEdge s t := by
  unfold afterEdge takeCommand captureTick
  rw [withLevels_pins, withLevels_intake, hvalid, hword, htick]
  split_ifs <;> rfl

/-- A step does not depend on the levels that the sequencer's part of it does not read, beside `rst_n`, the intake's and
`sample_tick_i`. -/
theorem step_withLevels (hseq : sequencerEdge (withLevels p s) = mapNext (withLevels p) (sequencerEdge s))
    (hrst : p.rstN = s.env.pins.rstN) (hvalid : p.cmdValid = s.env.pins.cmdValid)
    (hword : p.cmdWord = s.env.pins.cmdWord) (htick : p.sampleTick = s.env.pins.sampleTick) :
    step (withLevels p s) = step s := by
  have hreset : resetEdge (withLevels p s) = resetEdge s := rfl
  unfold step clockEdge
  rw [withLevels_cfg, withLevels_pins, hrst, hreset, hseq, mapNext_mapNext]
  simp only [afterEdge_withLevels _ hvalid hword htick]

end

/-- A step does not read the host's read address (R31). -/
theorem step_withLevels_rdAddr (s : State) (a : HostAddr) :
    step (withLevels { s.env.pins with rdAddr := a } s) = step s :=
  step_withLevels (sequencerEdge_withLevels rfl rfl rfl (fun _ _ _ _ => rfl) fun _ _ _ _ _ => rfl) rfl rfl rfl rfl

/-! ### The words a host reads -/

section
variable {n : Nat} (x : BitVec n) (b : Bool) (k l : Nat)

theorem getLsbD_append_ofBool_zero : (x ++ BitVec.ofBool b).getLsbD 0 = b := by
  rw [BitVec.getLsbD_append]
  simp

theorem getLsbD_append_ofBool_succ : (x ++ BitVec.ofBool b).getLsbD (k + 1) = x.getLsbD k := by
  simp [BitVec.getLsbD_append]

theorem extractLsb'_append_ofBool_succ : (x ++ BitVec.ofBool b).extractLsb' (k + 1) l = x.extractLsb' k l :=
  BitVec.extractLsb'_append_eq_of_le (Nat.le_add_left 1 k)

end

/-- The fields of STATUS (R32). -/
theorem statusWord_fields (s : State) :
    (statusWord s).getLsbD 0 = s.seq.owner.busy ∧ (statusWord s).getLsbD 1 = s.intake.cmdFull ∧
    (statusWord s).getLsbD 2 = s.intake.tickPend ∧ (statusWord s).getLsbD 3 = s.intake.extGnt ∧
    (statusWord s).getLsbD 4 = s.intake.err ∧ (statusWord s).getLsbD 5 = decide (s.seq.initCnt.toNat < 4) ∧
    (statusWord s).extractLsb' 6 3 = s.seq.owner.code ∧
    (statusWord s).getLsbD 9 = (!s.cfg.adcGuarded && s.susp.valid) ∧ (statusWord s).extractLsb' 10 6 = 0 := by
  have hcode : ((0#6 : BitVec 6) ++ BitVec.ofBool s.suspended ++ s.seq.owner.code).extractLsb' 0 3 =
      s.seq.owner.code := by
    rw [BitVec.extractLsb'_append_eq_of_add_le (by decide)]
    exact BitVec.extractLsb'_eq_self
  have hsusp : ((0#6 : BitVec 6) ++ BitVec.ofBool s.suspended ++ s.seq.owner.code).getLsbD 3 = s.suspended := by
    rw [BitVec.getLsbD_append]
    exact getLsbD_append_ofBool_zero _ _
  have hzero : ((0#6 : BitVec 6) ++ BitVec.ofBool s.suspended ++ s.seq.owner.code).extractLsb' 4 6 = 0 := by
    rw [BitVec.extractLsb'_append_eq_of_le (by decide), BitVec.extractLsb'_append_eq_of_le (by decide)]
    rfl
  unfold statusWord
  simp only [getLsbD_append_ofBool_zero, getLsbD_append_ofBool_succ, extractLsb'_append_ofBool_succ,
    true_and]
  exact ⟨rfl, rfl, hcode, hsusp, hzero⟩

/-- STATUS at reset shows only that INIT is to be done (R240, R32). -/
theorem statusWord_resetWith (c : Config) (e : Env) : statusWord (.resetWith c e) = 0x0020 := by
  have hs : (State.resetWith c e).suspended = false := by
    simp [State.suspended, State.resetWith, Suspended.reset]
  unfold statusWord
  rw [hs]
  show (0#6 : BitVec 6) ++ BitVec.ofBool false ++ Owner.none.code ++ BitVec.ofBool true ++ BitVec.ofBool false ++
    BitVec.ofBool false ++ BitVec.ofBool false ++ BitVec.ofBool false ++ BitVec.ofBool false = (0x0020 : Word)
  decide

/-- Settles O54: STATUS is laid out field by field, and its fields at reset give the word. -/
theorem statusFields : Obligations.StatusFields := ⟨statusWord_fields, statusWord_resetWith⟩

@[simp] theorem visible_cfg (s : State) : (visible s).cfg = s.cfg := by
  unfold visible
  split <;> rfl

@[simp] theorem visible_env (s : State) : (visible s).env = s.env := by
  unfold visible
  split <;> rfl

/-- The fields of PINS (R33). -/
theorem pinsWord_fields (s : State) :
    (pinsWord s).getLsbD 0 = (muxLines s).sck ∧ (pinsWord s).getLsbD 1 = (muxLines s).data ∧
    (pinsWord s).getLsbD 2 = (muxLines s).dataOe ∧ (pinsWord s).getLsbD 3 = s.env.pins.dataI ∧
    (pinsWord s).getLsbD 4 = s.env.pins.sdi ∧ (pinsWord s).getLsbD 5 = (muxLines s).keyLdN ∧
    (pinsWord s).getLsbD 6 = (muxLines s).ledLatch ∧ (pinsWord s).getLsbD 7 = (muxLines s).adcCsN ∧
    (pinsWord s).getLsbD 8 = (muxLines s).extGnt ∧ (pinsWord s).getLsbD 9 = s.env.pins.rotate ∧
    (pinsWord s).extractLsb' 10 6 = 0 := by
  unfold pinsWord
  simp only [getLsbD_append_ofBool_zero, getLsbD_append_ofBool_succ, extractLsb'_append_ofBool_succ,
    true_and]
  rfl

/-- Settles O55: address 0x0C reads PINS of the present cycle's registers, from which the output ports are driven
too. -/
theorem pinsFields : Obligations.PinsFields := by
  intro s
  have hread : hostRead s 0x0C = pinsWord (visible s) := rfl
  have hfields := pinsWord_fields (visible s)
  rw [visible_env] at hfields
  rw [hread]
  exact hfields

/-! ### The host register map -/

/-- The fields of CONFIG (R31); `N_WIN` fits its field where it is legal. -/
theorem configWord_fields (c : Config) :
    (c.legal = true → ((configWord c).extractLsb' 0 8).toNat = c.nWin) ∧
      (configWord c).getLsbD 8 = c.reorder ∧ (configWord c).getLsbD 9 = c.adcGuarded ∧
      (configWord c).extractLsb' 10 6 = 0 := by
  refine ⟨fun h => ?_, ?_, ?_, ?_⟩
  · obtain ⟨-, h128⟩ := nWin_bounds_of_legal h
    unfold configWord
    rw [BitVec.extractLsb'_append_eq_of_add_le (by decide), BitVec.extractLsb'_eq_self, BitVec.toNat_ofNat]
    exact Nat.mod_eq_of_lt (by omega)
  · unfold configWord
    rw [BitVec.getLsbD_append]
    exact getLsbD_append_ofBool_zero _ _
  · unfold configWord
    rw [BitVec.getLsbD_append]
    exact (getLsbD_append_ofBool_succ _ _ 0).trans (getLsbD_append_ofBool_zero _ _)
  · unfold configWord
    rw [BitVec.extractLsb'_append_eq_of_le (by decide)]
    exact (extractLsb'_append_ofBool_succ _ _ 1 6).trans (extractLsb'_append_ofBool_succ _ _ 0 6)

/-- The addresses between PINS and the ring are reserved (R31). -/
theorem hostRegister_reserved {a : HostAddr} (s : State) (h0 : 0x0C < a.toNat) (h1 : a.toNat < 0x80) :
    hostRegister s a = 0 := by
  unfold hostRegister
  rw [if_pos h1]
  split
  case h_14 => rfl
  all_goals omega

/-- From 0x80 on stand the ring's entries, and 0 beyond them (R31). -/
theorem hostRegister_ring (s : State) {i : Nat} (hi : i < 128) :
    hostRegister s (BitVec.ofNat 8 (0x80 + i)) =
      if i < s.cfg.nWin then (s.deb.ring.getD i 0).setWidth 16 else 0 := by
  have ha : (BitVec.ofNat 8 (0x80 + i)).toNat = 0x80 + i := by
    rw [BitVec.toNat_ofNat]
    exact Nat.mod_eq_of_lt (by omega)
  unfold hostRegister
  rw [ha, if_neg (by omega), Nat.add_sub_cancel_left]

/-- The four history entries stand side by side (R31). -/
theorem hostRegister_hist (s : State) (c : Fin 4) :
    hostRegister s (BitVec.ofNat 8 (0x08 + c.val)) = (s.analog.hist.get c).setWidth 16 := by
  match c with
  | 0 => rfl
  | 1 => rfl
  | 2 => rfl
  | 3 => rfl

/-- Settles O53: the map is read off address by address, and a step does not read the address. -/
theorem hostRegisterMap : Obligations.HostRegisterMap := by
  refine ⟨fun s => ?_, step_withLevels_rdAddr⟩
  have hcfg : hostRead s 0x07 = configWord s.cfg := congrArg configWord (visible_cfg s)
  refine ⟨visible_of_rstN, rfl, rfl, rfl, rfl, rfl, rfl, rfl, rfl, ?_, hostRegister_hist (visible s), rfl,
    fun a => hostRegister_reserved (visible s), fun i hi => ?_⟩
  · rw [hcfg]
    exact configWord_fields s.cfg
  · have hring := hostRegister_ring (visible s) hi
    rwa [visible_cfg] at hring

/-! ### A host at a command line -/

/-- A line that is not well-formed stands for no command (R75). -/
theorem assembleLine_of_not_wf {l : AsmLine} (h : l.wf = false) : assembleLine l = none := by
  simp [assembleLine, h]

/-- Settles O58: the line's word is driven, and `cmd_ready_o` of that cycle decides which line comes next; a line
that is not well-formed drives nothing. -/
theorem commandLinesAreOfferedUntilAccepted : Obligations.CommandLinesAreOfferedUntilAccepted := by
  refine ⟨fun s ls m v i h => ?_, fun s ls m v h => ?_⟩
  · have hlevels : lineLevels (.command m v) s.env.pins =
        some { s.env.pins with cmdValid := true, cmdWord := encode i } := by simp [lineLevels, h]
    unfold programCycle
    rw [hlevels]
    rfl
  · have hlevels : lineLevels (.command m v) s.env.pins = none := by
      simp [lineLevels, assembleLine_of_not_wf h]
    unfold programCycle
    rw [hlevels]

end Sys2Proof.Machine
end

section
namespace Sys2Proof
open Machine

/-! Encoder and decoder (R70, R72): the fields of a word laid out by `word`, the round trip, and the rows of the opcode
table. -/

/-! ### The fields of a word -/

section
variable (opc : BitVec 4) (ch : Channel) (data : Byte)

@[simp] theorem argzOf_word : argzOf (word opc ch data) = 0 := by
  unfold argzOf word
  rw [BitVec.extractLsb'_append_eq_of_le (by decide), BitVec.extractLsb'_append_eq_of_le (by decide)]
  exact BitVec.extractLsb'_append_eq_right

@[simp] theorem chOf_word : chOf (word opc ch data) = ch := by
  unfold chOf word
  rw [BitVec.extractLsb'_append_eq_of_le (by decide)]
  exact BitVec.extractLsb'_append_eq_right

@[simp] theorem dataOf_word : dataOf (word opc ch data) = data := BitVec.extractLsb'_append_eq_right

/-- The number a word stands for, by its fields (R70). -/
theorem word_toNat : (word opc ch data).toNat = 0x1000 * opc.toNat + 0x100 * ch.toNat + data.toNat := by
  unfold word
  rw [BitVec.toNat_append, BitVec.toNat_append, BitVec.toNat_append,
    ← Nat.shiftLeft_add_eq_or_of_lt data.isLt, ← Nat.shiftLeft_add_eq_or_of_lt ch.isLt,
    ← Nat.shiftLeft_add_eq_or_of_lt (0#2).isLt, BitVec.toNat_ofNat]
  simp only [Nat.shiftLeft_eq]
  omega
end

/-- A word under a mask, field by field (R70). -/
theorem fields_of_and_eq {w mask v : Word} (h : w &&& mask = v) :
    opcOf w &&& opcOf mask = opcOf v ∧ argzOf w &&& argzOf mask = argzOf v ∧
      chOf w &&& chOf mask = chOf v ∧ dataOf w &&& dataOf mask = dataOf v := by
  subst h
  exact ⟨BitVec.extractLsb'_and.symm, BitVec.extractLsb'_and.symm, BitVec.extractLsb'_and.symm,
    BitVec.extractLsb'_and.symm⟩

/-! ### The round trip -/

/-- The word of a command decodes to the command: its operation code selects the row, and its must-be-zero fields are
zero (R72, R75). -/
theorem decode_encode (i : Instr) : decode (encode i) = .ok i := by
  cases i <;> simp [encode, decode, whenZero]

/-- Settles O1: encoding then decoding by the fields of the word, decoding then encoding by the row that was taken. -/
theorem decodeAndEncodeAgree : Obligations.DecodeAndEncodeAgree :=
  ⟨decode_encode, fun _ _ => encode_of_decode⟩

theorem decode_eq_ok_iff {w : Word} {i : Instr} : decode w = .ok i ↔ encode i = w :=
  ⟨encode_of_decode, fun h => h ▸ decode_encode i⟩

/-! ### The rows of the opcode table -/

/-- Every command's word lies in the command's row (R72). -/
theorem encodeInRow (i : Instr) : Laws.EncodeInRow.Statement i := by
  cases i with
  | nop => exact Laws.EncodeInRow.nop
  | record d => exact Laws.EncodeInRow.record d
  | keysample => exact Laws.EncodeInRow.keysample
  | dbread => exact Laws.EncodeInRow.dbread
  | updedge => exact Laws.EncodeInRow.updedge
  | ledwrite d => exact Laws.EncodeInRow.ledwrite d
  | adcread c => exact Laws.EncodeInRow.adcread c
  | xfer d => exact Laws.EncodeInRow.xfer d

theorem mem_matchingRows {w : Word} {r : Word × Word} :
    r ∈ matchingRows w ↔ r ∈ opcodeRows ∧ w &&& r.2 = r.1 := by
  simp [matchingRows]

/-- Every row of the table is the row of a command (R72). -/
theorem exists_row_of_mem_opcodeRows {r : Word × Word} (h : r ∈ opcodeRows) :
    ∃ i, (rowMatch i, rowMask i) = r := by
  have hrows : opcodeRows = [.nop, .record 0, .keysample, .dbread, .updedge, .ledwrite 0, .adcread 0, .xfer 0].map
      fun i => (rowMatch i, rowMask i) := rfl
  rw [hrows, List.mem_map] at h
  obtain ⟨i, -, hi⟩ := h
  exact ⟨i, hi⟩

/-- A mask keeps the whole operation code, so a row that a word matches has the word's operation code (R72). -/
theorem opcOf_of_mem_matchingRows {w : Word} {r : Word × Word} (h : r ∈ matchingRows w) : opcOf r.1 = opcOf w := by
  obtain ⟨hrow, hmatch⟩ := mem_matchingRows.1 h
  have hmask : ∀ r ∈ opcodeRows, opcOf r.2 = 0xF := by simp [opcodeRows, opcOf]
  obtain ⟨hopc, -⟩ := fields_of_and_eq hmatch
  rw [hmask r hrow] at hopc
  exact hopc.symm.trans BitVec.and_allOnes

/-- The rows of the table differ in their operation codes (R72), so a word matches at most one of them. -/
theorem matchingRows_length_le_one (w : Word) : (matchingRows w).length ≤ 1 := by
  have hnodup : (opcodeRows.map fun r => opcOf r.1).Nodup := by decide
  have hsub : ((matchingRows w).map fun r => opcOf r.1).Nodup := hnodup.sublist (List.filter_sublist.map _)
  have hsame : ∀ o ∈ (matchingRows w).map (fun r => opcOf r.1), o = opcOf w := by
    intro o ho
    obtain ⟨r, hr, rfl⟩ := List.mem_map.1 ho
    exact opcOf_of_mem_matchingRows hr
  rw [List.eq_replicate_of_mem hsame, List.nodup_replicate, List.length_map] at hsub
  exact hsub

/-- A word that decodes matches the row of its command (R72). -/
theorem matches_row_of_decode {w : Word} {i : Instr} (h : decode w = .ok i) : w &&& rowMask i = rowMatch i := by
  obtain ⟨hmatch, -⟩ := encodeInRow i
  rwa [encode_of_decode h] at hmatch

/-- A word in a row without an operand is the row's match bits (R72). -/
theorem eq_of_and_full_mask {w v : Word} (h : w &&& 0xFFFF = v) : v = w := h.symm.trans BitVec.and_allOnes

/-- A word in a row with the operand `DATA` is the row's word with the word's own `DATA` (R71, R72). -/
theorem word_of_and_data_mask {w : Word} {opc : BitVec 4} (h : w &&& 0xFF00 = word opc 0 0) :
    word opc 0 (dataOf w) = w := by
  obtain ⟨hopc, hz, hc, -⟩ := fields_of_and_eq h
  rw [opcOf_word] at hopc
  rw [argzOf_word] at hz
  rw [chOf_word] at hc
  exact word_eq_of_fields (congrArg BitVec.toNat (BitVec.and_allOnes.symm.trans hopc))
    (BitVec.and_allOnes.symm.trans hz) (BitVec.and_allOnes.symm.trans hc) rfl

/-- A word in the row with the operand `CH` is the row's word with the word's own `CH` (R71, R72). -/
theorem word_of_and_channel_mask {w : Word} {opc : BitVec 4} (h : w &&& 0xFCFF = word opc 0 0) :
    word opc (chOf w) 0 = w := by
  obtain ⟨hopc, hz, -, hd⟩ := fields_of_and_eq h
  rw [opcOf_word] at hopc
  rw [argzOf_word] at hz
  rw [dataOf_word] at hd
  exact word_eq_of_fields (congrArg BitVec.toNat (BitVec.and_allOnes.symm.trans hopc))
    (BitVec.and_allOnes.symm.trans hz) rfl (BitVec.and_allOnes.symm.trans hd)

/-- A word that matches a row is the word of the row's command, with the operand that stands in its operand field
(R71, R72). -/
theorem exists_encode_of_matches_row {w : Word} {i : Instr} (h : w &&& rowMask i = rowMatch i) :
    ∃ j, encode j = w := by
  cases i with
  | nop => exact ⟨.nop, eq_of_and_full_mask h⟩
  | record _ => exact ⟨.record (dataOf w), word_of_and_data_mask h⟩
  | keysample => exact ⟨.keysample, eq_of_and_full_mask h⟩
  | dbread => exact ⟨.dbread, eq_of_and_full_mask h⟩
  | updedge => exact ⟨.updedge, eq_of_and_full_mask h⟩
  | ledwrite _ => exact ⟨.ledwrite (dataOf w), word_of_and_data_mask h⟩
  | adcread _ => exact ⟨.adcread (chOf w), word_of_and_channel_mask h⟩
  | xfer _ => exact ⟨.xfer (dataOf w), word_of_and_data_mask h⟩

/-- Settles O2: the rows differ in their operation codes; a word that decodes is the word of its command, which lies in
the command's row; and a word in a row is the word of a command, which decodes. -/
theorem wordsDecodeIffOneRowMatches : Obligations.WordsDecodeIffOneRowMatches := by
  refine fun w => ⟨matchingRows_length_le_one w, ⟨?_, fun h => ?_⟩, fun i => matches_row_of_decode⟩
  · rintro ⟨i, hi⟩
    obtain ⟨-, hrow⟩ := encodeInRow i
    have hmem : (rowMatch i, rowMask i) ∈ matchingRows w := mem_matchingRows.2 ⟨hrow, matches_row_of_decode hi⟩
    exact decide_eq_true (Nat.le_antisymm (matchingRows_length_le_one w) (List.length_pos_of_mem hmem))
  · obtain ⟨r, hr⟩ := List.length_eq_one_iff.1 (of_decide_eq_true h)
    obtain ⟨hrow, hmatch⟩ := mem_matchingRows.1 (hr ▸ List.mem_singleton_self r)
    obtain ⟨i, rfl⟩ := exists_row_of_mem_opcodeRows hrow
    obtain ⟨j, hj⟩ := exists_encode_of_matches_row hmatch
    exact ⟨j, decode_eq_ok_iff.2 hj⟩

/-- Settles O3: the legal words are the words of their commands, and the others have a must-be-zero field that is not
zero or an operation code without a row. -/
theorem specTableWordsDecode : Obligations.SpecTableWordsDecode :=
  ⟨decode_encode .nop, decode_encode (.record 0xFF), decode_encode .keysample, decode_encode .dbread,
    decode_encode .updedge, decode_encode (.ledwrite 0x81), decode_encode (.adcread 2), decode_encode (.xfer 0x3C),
    rfl, rfl, rfl⟩

/-! ### Assembly lines with an operand -/

/-- A line whose operand does not fit the row's field stands for no command (R75). -/
theorem assembleLine_of_out_of_range {m : Mnemonic} {bound n : Nat} (hm : m.operandRange = some bound)
    (hn : bound ≤ n) : assembleLine (.command m (some n)) = none :=
  assembleLine_of_not_wf (by simp [AsmLine.wf, hm, hn])

/-- Settles O4: an operand in range is the number in its field, and a line that is not well-formed has no command. -/
theorem assemblerEncodesOperandsInRange : Obligations.AssemblerEncodesOperandsInRange := by
  refine ⟨fun n hn => ?_, fun n hn => ?_, fun n hn => ⟨?_, ?_, ?_⟩, fun n hn => assembleLine_of_out_of_range rfl hn⟩
  · have hmod : n % 256 = n := Nat.mod_eq_of_lt hn
    refine ⟨?_, ?_, ?_⟩ <;>
      simp [assembleLine, AsmLine.wf, Mnemonic.operandRange, hn, encode, word_toNat, hmod]
  · have hmod : n % 4 = n := Nat.mod_eq_of_lt hn
    simp [assembleLine, AsmLine.wf, Mnemonic.operandRange, hn, encode, word_toNat, hmod]
  all_goals exact assembleLine_of_out_of_range rfl hn

/-! ### A host at a pseudo-line -/

theorem statusDone_iff (status : Word) :
    statusDone status = true ↔
      status.getLsbD 1 = false ∧ status.extractLsb' 6 3 ≠ 3 ∧ status.getLsbD 9 = false := by
  simp only [statusDone, Bool.and_eq_true, Bool.not_eq_true', decide_eq_false_iff_not, and_assoc]
  rfl

/-- STATUS shows the registers: of the input levels, only `rst_n` matters to it (R32, R240). -/
theorem statusWord_visible_withLevels {p : Inputs} {s : State} (h : p.rstN = s.env.pins.rstN) :
    statusWord (visible (withLevels p s)) = statusWord (visible s) := by
  cases hrst : s.env.pins.rstN with
  | true => rw [visible_of_rstN hrst, visible_of_rstN (h.trans hrst)]; rfl
  | false => rw [visible_of_reset hrst, visible_of_reset (h.trans hrst)]; rfl

/-- A host at a WAIT goes on to the next line in a cycle where STATUS says that its command is done, and polls
otherwise (R76, R107). -/
theorem programCycle_wait (s : State) (ls : List AsmLine) :
    programCycle (.wait :: ls) s =
      if statusDone (statusWord (visible s)) then programCycle ls (withLevels { s.env.pins with rdAddr := 0x00 } s)
      else some (withLevels { s.env.pins with rdAddr := 0x00 } s, .wait :: ls) := by
  have hread : (outputs (withLevels { s.env.pins with rdAddr := 0x00 } s)).rdData = statusWord (visible s) :=
    statusWord_visible_withLevels rfl
  rw [← hread]
  rfl

/-- Settles O57: TICK drives its port for one cycle; WAIT reads the STATUS word, which the read address does not
change, and goes on where that word says so. -/
theorem pseudoLinesTickAndWait : Obligations.PseudoLinesTickAndWait := by
  refine ⟨⟨rfl, rfl⟩, fun _ _ => rfl, fun s ls => ⟨statusWord_visible_withLevels rfl, fun h => ?_, fun h => ?_⟩⟩
  · rw [programCycle_wait, if_pos ((statusDone_iff _).2 h)]
  · rw [programCycle_wait, if_neg]
    rw [statusDone_iff]
    rintro ⟨hfull, howner, hsusp⟩
    rcases h with h | h | h
    · exact Bool.false_ne_true (hfull.symm.trans h)
    · exact howner h
    · exact Bool.false_ne_true (hsusp.symm.trans h)

end Sys2Proof
end

section
namespace Sys2Proof.Machine

open Host (Outcome)

/-! SUPPORT. Which command an edge runs, and what its micro-step leaves behind; O5, O6, O7, O9. -/

/-! ### The command that an edge runs -/

section
variable {s : State} {i : Instr}

/-- The start of a command is its micro-step 0 (R103). -/
theorem start_of_decode {src : Owner} {w : Word} (hd : decode w = .ok i) :
    start src w s = mapNext (keepWord i w) (exec i ((s.setOwner src).setStep 0)) := by
  unfold start
  rw [hd]

/-- The edge of a processed cycle that starts a command runs its micro-step 0 between the other events (R103). -/
theorem step_of_start {s' : State} {src : Owner} {w : Word} (hl : live s) (hd : decode w = .ok i)
    (h : sequencerEdge s = start src w s') :
    step s = mapNext (fun t => afterEdge s (keepWord i w t)) (exec i ((s'.setOwner src).setStep 0)) := by
  rw [step_live hl.1 hl.2, h, start_of_decode hd, mapNext_mapNext]

theorem sequencerEdge_of_busy (hb : s.seq.owner.busy = true) (hp : preemptCondition s = false) :
    sequencerEdge s = stepInProgress s := by
  unfold sequencerEdge
  cases ho : s.seq.owner with
  | none | ext => simp [ho, Owner.busy] at hb
  | init | tick => rfl
  | host => simp [hp]

theorem sequencerEdge_of_preempt (hp : preemptCondition s = true) : sequencerEdge s = preempt s := by
  obtain ⟨-, ho, -⟩ := (preemptCondition_iff s).1 hp
  simp [sequencerEdge, ho, hp]

theorem sequencerEdge_of_arbitrate_init (ho : s.seq.owner = .none) (ha : arbitrate s = .init) :
    sequencerEdge s = start .init (initWord s.seq.initCnt) s := by
  simp [sequencerEdge, startSelected, ho, ha]

theorem sequencerEdge_of_arbitrate_tick (ho : s.seq.owner = .none) (ha : arbitrate s = .tick) :
    sequencerEdge s = start .tick tickWord (s.setTickPend false) := by
  simp [sequencerEdge, startSelected, ho, ha]

theorem sequencerEdge_of_arbitrate_host (ho : s.seq.owner = .none) (ha : arbitrate s = .host) :
    sequencerEdge s = start .host s.intake.cmdSlot (s.setCmdFull false) := by
  simp [sequencerEdge, startSelected, ho, ha]

end

/-- Settles O5: the owner and the selection say which start or micro-step the sequencer does, and a start of more than
one step keeps its word. -/
theorem stepRunsTheDecodedCommand : Obligations.StepRunsTheDecodedCommand := by
  refine ⟨fun s i hl hb hp hd => ?_, fun s i hl ho ha hd => ?_, fun s hl ho ha => ?_, fun s hl ho ha => ?_,
    fun s hl hp => ?_⟩
  · rw [step_live hl.1 hl.2, sequencerEdge_of_busy hb hp, stepInProgress, hd]
  · exact step_of_start hl hd (sequencerEdge_of_arbitrate_host ho ha)
  · exact step_of_start hl decode_tickWord (sequencerEdge_of_arbitrate_tick ho ha)
  · exact step_of_start hl (decode_initWord _ (initCnt_lt_of_arbitrate_init ha))
      (sequencerEdge_of_arbitrate_init ho ha)
  · exact step_of_start hl decode_tickWord (sequencerEdge_of_preempt hp)

/-- Settles O7: every meaning runs its table through `runMicro`, which stops at a step beyond the table. -/
theorem strayStepStops : Obligations.StrayStepStops := fun _ _ => exec_of_le

/-! ### NOP -/

/-- The host's NOP only returns (R108). -/
theorem exec_nop {s : State} (hstep : s.seq.step.toNat = 0) (ho : s.seq.owner = .host) :
    exec .nop s = .next (idled s) := by
  have hadv : advance 1 s = finish s := by
    unfold advance
    rw [if_pos (by omega)]
  rw [exec_of_lt (by rw [hstep]; exact stepsOf_pos _)]
  exact congrArg Outcome.next (hadv.trans (finish_host ho))

/-- Settles O9: the start of a NOP is its only micro-step, which does nothing, and the word of NOP is 0x0000. -/
theorem nopDoesNothing : Obligations.NopDoesNothing := by
  refine ⟨fun s => exec_nop, fun s hl ho ha hslot => ?_, decode_encode .nop, fun w hw => (encode_of_decode hw).symm⟩
  have hd : decode s.intake.cmdSlot = .ok .nop := by
    rw [hslot]
    exact decode_encode .nop
  rw [step_of_start hl hd (sequencerEdge_of_arbitrate_host ho ha), exec_nop rfl rfl]
  rfl

/-! ### The bookkeeping after a micro-step -/

theorem advance_of_last {n : Nat} {s : State} (h : s.seq.step.toNat + 1 = n) : advance n s = finish s := if_pos h

theorem advance_of_lt {n : Nat} {s : State} (h : s.seq.step.toNat + 1 < n) :
    advance n s = s.setStep (s.seq.step + 1) := if_neg (by omega)

/-- No micro-step writes the registers that a suspended ADCREAD is saved in (R195, R196). -/
theorem microBody_susp_saved (i : Instr) (k : Nat) (s : State) :
    ∃ c, (microBody i k s).susp = { s.susp with adcCorrupt := c } := by
  rcases microBody_susp i k s with h | ⟨-, -, -, h⟩
  · exact ⟨_, h⟩
  · exact ⟨_, h⟩

@[simp] theorem microBody_suspended (i : Instr) (k : Nat) (s : State) :
    (microBody i k s).suspended = s.suspended := by
  simp [State.suspended]

/-- Settles O6: no micro-step writes `OWNER`, `OP`, `STEP`, `INIT_CNT`, the saved ADCREAD or the intake, so that what
becomes of them is the bookkeeping's doing: `STEP + 1`, or one of the three ways an operation returns. -/
theorem microStepThenBookkeeping : Obligations.MicroStepThenBookkeeping := by
  intro i s hlt
  refine ⟨_, exec_of_lt hlt, by simp, by simp, ?_, fun hnext => ?_, fun hlast => ?_⟩
  · obtain ⟨-, -, henv, -⟩ := microBody_frame i s.seq.step.toNat s
    simp [henv]
  · have hstep : (s.seq.step + 1).toNat = s.seq.step.toNat + 1 := by
      have := stepsOf_le i
      bv_omega
    rw [advance_of_lt (by rwa [microBody_step])]
    exact ⟨microBody_owner .., microBody_op .., by rw [State.setStep_seq_step, microBody_step, hstep],
      microBody_initCnt .., microBody_susp_of_lt hnext⟩
  · obtain ⟨c, hsaved⟩ := microBody_susp_saved i s.seq.step.toNat s
    rw [advance_of_last (by rwa [microBody_step])]
    rcases finish_cases (microBody i s.seq.step.toNat s) with ⟨ho, e⟩ | ⟨ho, hs, e⟩ | ⟨ho, hs, e⟩ <;>
      rw [microBody_owner] at ho
    · simp [e, ho]
    · rw [microBody_suspended] at hs
      simp [e, ho, hs, resume, hsaved]
    · rw [microBody_owner, microBody_suspended] at hs
      refine ⟨fun h => absurd h ho, fun h1 h2 => absurd ⟨h1, h2⟩ hs, fun _ _ => ?_⟩
      simp [e]

end Sys2Proof.Machine
end

section
namespace Sys2Proof.Machine

/-! SUPPORT. What the sequencer's part of an edge does to the intake, to the datapath, and to the host's operation; O35,
O36, O45, O49. -/

/-! ### The intake -/

/-- An edge that starts the command in the slot, or disposes of its word (R103). -/
abbrev StartsHost (s : State) : Prop := s.seq.owner = .none ∧ arbitrate s = .host

/-- An edge that starts the KEYSAMPLE of the pending tick, from idle or by preemption (R103, R195). -/
abbrev StartsTick (s : State) : Prop :=
  (s.seq.owner = .none ∧ arbitrate s = .tick) ∨ preemptCondition s = true

/-- The host is selected only with a full slot (R192). -/
theorem cmdFull_of_startsHost {s : State} (h : StartsHost s) : s.intake.cmdFull = true := by
  rcases arbitrate_cases s with ⟨e, -⟩ | ⟨e, -⟩ | ⟨e, -⟩ | ⟨-, -, -, -, hfull⟩ | ⟨e, -⟩
  case inr.inr.inr.inl => exact hfull
  all_goals
    rw [h.2] at e
    cases e

/-- A start writes of the intake only `ERR` (R103, R210). -/
theorem start_intake {src : Owner} {w : Word} {s t : State} (h : start src w s = .next t) :
    t.intake.cmdSlot = s.intake.cmdSlot ∧ t.intake.cmdFull = s.intake.cmdFull ∧
      t.intake.tickPend = s.intake.tickPend := by
  rcases start_next h with ⟨-, rfl⟩ | ⟨i, -, rfl⟩ <;> simp [raiseIllegal]

/-- Only an operation of the host is preempted (R195). -/
theorem preemptCondition_of_owner_ne {s : State} (ho : s.seq.owner ≠ .host) : preemptCondition s = false := by
  simp [preemptCondition, ho]

/-- What the sequencer does to the slot and to the pending tick: it frees the one where it starts the host's command and
clears the other where it starts the tick's (R103). -/
theorem sequencerEdge_intake {s t : State} (h : sequencerEdge s = .next t) :
    t.intake.cmdSlot = s.intake.cmdSlot ∧
      (t.intake.cmdFull = true ↔ s.intake.cmdFull = true ∧ ¬ StartsHost s) ∧
      (t.intake.tickPend = true ↔ s.intake.tickPend = true ∧ ¬ StartsTick s) := by
  rcases sequencerEdge_next h with ⟨ho, hs⟩ | ⟨ho, rfl⟩ | ⟨hp, hs⟩ | ⟨hb, hp, hs⟩
  · have hp := preemptCondition_of_owner_ne (s := s) (by simp [ho])
    rcases startSelected_next hs with ⟨ha, rfl⟩ | ⟨ha, rfl⟩ | ⟨ha, hs⟩ | ⟨ha, hs⟩ | ⟨ha, hs⟩
    · simp [ha, hp]
    · simp [ha, hp, grantExt]
    · simp [ha, hp, start_intake hs]
    · simp [ho, ha, hp, start_intake hs]
    · simp [ho, ha, hp, start_intake hs]
  · have hp := preemptCondition_of_owner_ne (s := s) (by simp [ho])
    split <;> simp [ho, hp, releaseExt]
  · obtain ⟨-, ho, -⟩ := (preemptCondition_iff s).1 hp
    simp [ho, hp, start_intake hs, suspend]
  · have ho : s.seq.owner ≠ .none := by
      intro ho
      simp [ho, Owner.busy] at hb
    obtain ⟨i, -, -, rfl⟩ := stepInProgress_next hs
    simp [ho, hp]

/-- What a processed edge did. -/
theorem step_next_of_live {s t : State} (hl : live s) (h : step s = .next t) :
    ∃ u, sequencerEdge s = .next u ∧ t = afterEdge s u := by
  rw [step_live hl.1 hl.2] at h
  exact mapNext_next h

/-- The slot after a processed edge: full by an accepted word, or still full (R102, R103). -/
theorem step_cmdFull {s t : State} (hl : live s) (h : step s = .next t) :
    t.intake.cmdFull = true ↔
      (s.env.pins.cmdValid = true ∧ s.intake.cmdFull = false) ∨ (s.intake.cmdFull = true ∧ ¬ StartsHost s) := by
  obtain ⟨u, hu, rfl⟩ := step_next_of_live hl h
  obtain ⟨-, hfull, -⟩ := sequencerEdge_intake hu
  rw [afterEdge_cmdFull, Bool.or_eq_true, hfull]
  simp

/-- The slot's word after a processed edge: the accepted one, or the old one (R102). -/
theorem step_cmdSlot {s t : State} (hl : live s) (h : step s = .next t) :
    t.intake.cmdSlot =
      if s.env.pins.cmdValid = true ∧ s.intake.cmdFull = false then s.env.pins.cmdWord else s.intake.cmdSlot := by
  obtain ⟨u, hu, rfl⟩ := step_next_of_live hl h
  obtain ⟨hslot, -⟩ := sequencerEdge_intake hu
  rw [afterEdge_cmdSlot, hslot]
  simp

/-- The pending tick after a processed edge: set by a tick, or still pending (R103). -/
theorem step_tickPend {s t : State} (hl : live s) (h : step s = .next t) :
    t.intake.tickPend = true ↔
      s.env.pins.sampleTick = true ∨ (s.intake.tickPend = true ∧ ¬ StartsTick s) := by
  obtain ⟨u, hu, rfl⟩ := step_next_of_live hl h
  obtain ⟨-, -, htick⟩ := sequencerEdge_intake hu
  rw [afterEdge_tickPend, Bool.or_eq_true, htick]

/-- Settles O35: the slot after an edge is written out by `step_cmdFull` and `step_cmdSlot`, and a start of the host's
command needs a full slot, which shuts out an acceptance. -/
theorem commandIntakeNeedsFreeSlot : Obligations.CommandIntakeNeedsFreeSlot := by
  refine ⟨fun s t hl h => ?_, fun s => rfl⟩
  have hfull := step_cmdFull hl h
  have hslot := step_cmdSlot hl h
  refine ⟨fun hv hf => ⟨?_, ?_⟩, fun hn => ?_, fun hv hf => ?_, fun hf => ?_, fun hs => ?_⟩
  · rw [hslot, if_pos ⟨hv, hf⟩]
  · exact hfull.2 (.inl ⟨hv, hf⟩)
  · rw [hslot, if_neg hn]
  · rw [← Bool.not_eq_true, hfull]
    simp [hv, hf]
  · rw [← Bool.not_eq_true, hfull]
    simp [hf]
  · have hf := cmdFull_of_startsHost hs
    refine ⟨hf, ?_, ?_⟩
    · rw [← Bool.not_eq_true, hfull]
      simp [hf, hs]
    · rw [hslot, if_neg (by simp [hf])]

/-- Settles O36: `TICK_PEND` after an edge is written out by `step_tickPend`. -/
theorem ticksCoalesceInOneBit : Obligations.TicksCoalesceInOneBit := by
  intro s t hl h
  have htick := step_tickPend hl h
  refine ⟨fun hi => htick.2 (.inl hi), fun hi hp => ?_, fun hi hp => ?_⟩
  · rw [← Bool.not_eq_true, htick]
    simp [hi, hp]
  · rw [← Bool.not_eq_true, htick, hi, hp]
    simp only [Bool.false_eq_true, false_or, true_and, not_not]

/-! ### The datapath -/

/-- The datapath registers of R110 are the same. -/
def SameDatapath (s t : State) : Prop := t.deb = s.deb ∧ t.analog = s.analog

/-- A micro-step that is not the last writes no datapath register (R110). -/
theorem microBody_sameDatapath {i : Instr} {k : Nat} (s : State) (hk : k + 1 < stepsOf i) :
    SameDatapath s (microBody i k s) := by
  cases i with
  | nop | record _ | dbread | updedge => simp [stepsOf] at hk
  | keysample =>
    simp only [stepsOf] at hk
    simp only [SameDatapath, microBody]
    rcases keysampleStep_cases k s with
      ⟨-, h⟩ | ⟨-, h⟩ | ⟨-, h⟩ | ⟨h19, -⟩ | ⟨-, -, -, h⟩ | ⟨-, -, -, h⟩
    case inr.inr.inr.inl => omega
    all_goals simp [h]
  | ledwrite d =>
    simp only [SameDatapath, microBody]
    rcases ledwriteStep_cases k s d with
      ⟨-, h⟩ | ⟨-, h⟩ | ⟨-, h⟩ | ⟨-, -, h⟩ | ⟨-, -, h⟩ | ⟨-, -, h⟩ <;> simp [h]
  | adcread c =>
    simp only [stepsOf] at hk
    simp only [SameDatapath, microBody]
    rcases adcreadStep_cases k s c with
      ⟨-, h⟩ | ⟨-, h⟩ | ⟨-, -, h⟩ | ⟨-, h⟩ | ⟨-, -, h⟩ | ⟨-, -, h⟩ | ⟨h74, -⟩
    case inr.inr.inr.inr.inr.inr => omega
    all_goals simp [h]
  | xfer d =>
    simp only [stepsOf] at hk
    simp only [SameDatapath, microBody]
    rcases xferStep_cases k s d with ⟨h23, -⟩ | ⟨-, h⟩
    · omega
    · simp [h]

/-- The start of a command of more than one step writes no datapath register (R110). -/
theorem start_sameDatapath {src : Owner} {w : Word} {s t : State} (h : start src w s = .next t)
    (hlong : ∀ i, decode w = .ok i → stepsOf i ≠ 1) : SameDatapath s t := by
  rcases start_next h with ⟨-, rfl⟩ | ⟨i, hd, rfl⟩
  · exact ⟨rfl, rfl⟩
  · have h1 : 0 + 1 < stepsOf i := lt_of_le_of_ne (stepsOf_pos i) (hlong i hd).symm
    obtain ⟨hdeb, hanalog⟩ := microBody_sameDatapath ((s.setOwner src).setStep 0) h1
    exact ⟨by simpa using hdeb, by simpa using hanalog⟩

/-- The block's own commands, KEYSAMPLE and INIT's ADCREAD, have more than one step (R74, R105). -/
theorem stepsOf_ne_one_of_tickWord {i : Instr} (hd : decode tickWord = .ok i) : stepsOf i ≠ 1 := by
  rw [decode_tickWord] at hd
  injection hd with hd
  simp [← hd, stepsOf]

theorem stepsOf_ne_one_of_initWord {cnt : BitVec 3} {i : Instr} (hcnt : cnt.toNat < 4)
    (hd : decode (initWord cnt) = .ok i) : stepsOf i ≠ 1 := by
  rw [decode_initWord cnt hcnt] at hd
  injection hd with hd
  simp [← hd, stepsOf]

/-- The sequencer writes the datapath registers only at the last micro-step of an operation in progress and with a
one-step command (R110). -/
theorem sequencerEdge_datapath {s t : State} (h : sequencerEdge s = .next t) :
    SameDatapath s t ∨
      (∃ i, s.seq.owner.busy = true ∧ decode s.seq.op = .ok i ∧ s.seq.step.toNat + 1 = stepsOf i) ∨
      ∃ i, s.seq.owner = .none ∧ arbitrate s = .host ∧ decode s.intake.cmdSlot = .ok i ∧ stepsOf i = 1 := by
  rcases sequencerEdge_next h with ⟨ho, hs⟩ | ⟨-, rfl⟩ | ⟨-, hs⟩ | ⟨hb, -, hs⟩
  · rcases startSelected_next hs with ⟨-, rfl⟩ | ⟨-, rfl⟩ | ⟨ha, hs⟩ | ⟨-, hs⟩ | ⟨ha, hs⟩
    · exact .inl ⟨rfl, rfl⟩
    · exact .inl ⟨rfl, rfl⟩
    · have hcnt := initCnt_lt_of_arbitrate_init ha
      exact .inl (start_sameDatapath hs fun _ => stepsOf_ne_one_of_initWord hcnt)
    · exact .inl (start_sameDatapath hs fun _ => stepsOf_ne_one_of_tickWord :)
    · by_cases h1 : ∃ i, decode s.intake.cmdSlot = .ok i ∧ stepsOf i = 1
      · obtain ⟨i, hd, h1⟩ := h1
        exact .inr (.inr ⟨i, ho, ha, hd, h1⟩)
      · exact .inl (start_sameDatapath hs fun i hd hi => h1 ⟨i, hd, hi⟩ :)
  · refine .inl ?_
    split <;> exact ⟨rfl, rfl⟩
  · exact .inl (start_sameDatapath hs fun _ => stepsOf_ne_one_of_tickWord :)
  · obtain ⟨i, hd, hlt, rfl⟩ := stepInProgress_next hs
    rcases Nat.eq_or_lt_of_le hlt with hlast | hnext
    · exact .inr (.inl ⟨i, hb, hd, hlast⟩)
    · obtain ⟨hdeb, hanalog⟩ := microBody_sameDatapath s hnext
      exact .inl ⟨by simpa using hdeb, by simpa using hanalog⟩

/-- Settles O45: the events of an edge beside the sequencer's part touch no datapath register. -/
theorem datapathWrittenAtLastStepOnly : Obligations.DatapathWrittenAtLastStepOnly := by
  intro s t hl h hne
  obtain ⟨u, hu, rfl⟩ := step_next_of_live hl h
  rcases sequencerEdge_datapath hu with ⟨hdeb, hanalog⟩ | hwrites
  · rw [afterEdge_deb, afterEdge_analog] at hne
    exact absurd hne (by simp [hdeb, hanalog])
  · exact hwrites

/-! ### The host's operation -/

/-- An operation of the host is in progress or suspended: what R107's condition excludes beside a full slot. -/
def HostRunning (s : State) : Prop := s.seq.owner = .host ∨ s.suspended = true

theorem hostDone_iff {s : State} (h : s.env.pins.rstN = true) :
    hostDone s = true ↔ s.intake.cmdFull = false ∧ ¬ HostRunning s := by
  simp [hostDone_of_rstN h, HostRunning, and_assoc]

/-- What is suspended is the host's operation, while the tick's runs (R195). -/
def SuspIsHosts (s : State) : Prop := s.suspended = true → s.seq.owner = .tick ∧ s.susp.owner = .host

theorem Inv.suspIsHosts {s : State} (h : Inv s) : SuspIsHosts s := by
  obtain ⟨-, -, -, -, ⟨-, hvalid, -⟩, -⟩ := h
  intro hs
  simp only [State.suspended, Bool.and_eq_true] at hs
  obtain ⟨ho, hso, -⟩ := hvalid hs.2
  exact ⟨ho, hso⟩

section
variable (s : State)
@[simp] theorem suspended_setOwner (v : Owner) : (s.setOwner v).suspended = s.suspended := rfl
@[simp] theorem suspended_setStep (v : BitVec 7) : (s.setStep v).suspended = s.suspended := rfl
@[simp] theorem suspended_setInitCnt (v : BitVec 3) : (s.setInitCnt v).suspended = s.suspended := rfl
@[simp] theorem suspended_setTickPend (v : Bool) : (s.setTickPend v).suspended = s.suspended := rfl
@[simp] theorem suspended_setExtGnt (v : Bool) : (s.setExtGnt v).suspended = s.suspended := rfl
@[simp] theorem suspended_keepWord (i : Instr) (w : Word) : (keepWord i w s).suspended = s.suspended := by
  simp [State.suspended]
@[simp] theorem suspended_afterEdge (t : State) : (afterEdge s t).suspended = t.suspended := by
  simp [State.suspended]
end

/-- The return of an operation leaves the host's in progress exactly where it resumes a suspended one (R104, R196). -/
theorem finish_hostRunning {s : State} (hsusp : SuspIsHosts s) : HostRunning (finish s) ↔ s.suspended = true := by
  rcases finish_cases s with ⟨-, e⟩ | ⟨-, hs, e⟩ | ⟨-, -, e⟩
  · simp [e, HostRunning]
  · simp [e, HostRunning, resume, hs, (hsusp hs).2]
  · simp [e, HostRunning]

/-- After a micro-step the host's operation is in progress or suspended when it was suspended before, or has steps left
(R104, R196). -/
theorem advance_hostRunning {n : Nat} {s : State} (hsusp : SuspIsHosts s) :
    HostRunning (advance n s) ↔ s.suspended = true ∨ (s.seq.owner = .host ∧ s.seq.step.toNat + 1 ≠ n) := by
  rcases advance_cases n s with ⟨hlast, e⟩ | ⟨hmore, e⟩ <;> rw [e]
  · simp [finish_hostRunning hsusp, hlast]
  · simp [HostRunning, hmore, or_comm]

/-- What is suspended stays the host's through a micro-step. -/
theorem SuspIsHosts.microBody {s : State} (h : SuspIsHosts s) (i : Instr) (k : Nat) :
    SuspIsHosts (microBody i k s) := by
  obtain ⟨c, hsaved⟩ := microBody_susp_saved i k s
  simpa [SuspIsHosts, hsaved] using h

/-- After an edge of an operation in progress the host's is done exactly where that was its last step. -/
theorem stepInProgress_hostRunning {s t : State} (hsusp : SuspIsHosts s) (h : stepInProgress s = .next t) :
    ∃ i, decode s.seq.op = .ok i ∧
      (HostRunning t ↔ s.suspended = true ∨ (s.seq.owner = .host ∧ s.seq.step.toNat + 1 ≠ stepsOf i)) := by
  obtain ⟨i, hd, -, rfl⟩ := stepInProgress_next h
  exact ⟨i, hd, by simp [advance_hostRunning (hsusp.microBody i _)]⟩

/-- After the start of a command the host's operation is in progress when the command is its own and has steps left
(R103), and suspended when it was before. -/
theorem start_hostRunning {src : Owner} {w : Word} {i : Instr} {s t : State} (hd : decode w = .ok i)
    (hsusp : SuspIsHosts (s.setOwner src)) (h : start src w s = .next t) :
    HostRunning t ↔ s.suspended = true ∨ (src = .host ∧ stepsOf i ≠ 1) := by
  rcases start_next h with ⟨⟨r, he⟩, -⟩ | ⟨j, hj, rfl⟩
  · simp [hd] at he
  obtain rfl : j = i := by simpa [hd] using hj.symm
  have hadv := advance_hostRunning (n := stepsOf j) (SuspIsHosts.microBody (s := (s.setOwner src).setStep 0) hsusp j 0)
  simpa [HostRunning, eq_comm (a := 1)] using hadv

/-- A preemption suspends the host's operation (R195). -/
theorem preempt_hostRunning {s t : State} (hp : preemptCondition s = true) (h : preempt s = .next t) :
    HostRunning t := by
  obtain ⟨hng, ho, -⟩ := (preemptCondition_iff s).1 hp
  have hs : (suspend s).suspended = true := by simp [State.suspended, suspend, hng]
  exact (start_hostRunning (s := suspend s) decode_tickWord (fun _ => ⟨rfl, ho⟩) h).2 (.inl hs)

/-- The host's operation is done only after its last step, which it must be in progress to do (R104, R107). -/
theorem hostRunning_or_last_of_sequencerEdge {s t : State} (hrun : HostRunning s) (hsusp : SuspIsHosts s)
    (h : sequencerEdge s = .next t) :
    HostRunning t ∨ ∃ i, s.seq.owner = .host ∧ decode s.seq.op = .ok i ∧ s.seq.step.toNat + 1 = stepsOf i := by
  have hbusy : s.seq.owner = .host ∨ s.seq.owner = .tick := hrun.imp_right fun hs => (hsusp hs).1
  rcases sequencerEdge_next h with ⟨ho, -⟩ | ⟨ho, -⟩ | ⟨hp, hs⟩ | ⟨-, -, hs⟩
  · simp [ho] at hbusy
  · simp [ho] at hbusy
  · exact .inl (preempt_hostRunning hp hs)
  · obtain ⟨i, hd, hiff⟩ := stepInProgress_hostRunning hsusp hs
    rcases hrun with ho | hs
    · by_cases hlast : s.seq.step.toNat + 1 = stepsOf i
      · exact .inr ⟨i, ho, hd, hlast⟩
      · exact .inl (hiff.2 (.inr ⟨ho, hlast⟩))
    · exact .inl (hiff.2 (.inl hs))

/-- An operation of the host begins only where its command is started (R103). -/
theorem not_hostRunning_of_sequencerEdge {s t : State} (hrun : ¬ HostRunning s) (hstart : ¬ StartsHost s)
    (h : sequencerEdge s = .next t) : ¬ HostRunning t := by
  obtain ⟨ho, hs⟩ := not_or.1 hrun
  have hsusp (src : Owner) : SuspIsHosts (s.setOwner src) := fun h => absurd h hs
  rcases sequencerEdge_next h with ⟨hn, hsel⟩ | ⟨-, rfl⟩ | ⟨hp, -⟩ | ⟨-, -, hprog⟩
  · rcases startSelected_next hsel with ⟨-, rfl⟩ | ⟨-, rfl⟩ | ⟨ha, hi⟩ | ⟨-, hi⟩ | ⟨ha, -⟩
    · exact hrun
    · simpa [HostRunning, grantExt] using hs
    · rw [start_hostRunning (decode_initWord _ (initCnt_lt_of_arbitrate_init ha)) (hsusp _) hi]
      simpa using hs
    · rw [start_hostRunning (s := s.setTickPend false) decode_tickWord (hsusp _) hi]
      simpa using hs
    · exact absurd ⟨hn, ha⟩ hstart
  · split
    · exact hrun
    · simpa [HostRunning, releaseExt] using hs
  · obtain ⟨-, hhost, -⟩ := (preemptCondition_iff s).1 hp
    exact absurd hhost ho
  · obtain ⟨i, -, hiff⟩ := stepInProgress_hostRunning (fun h => absurd h hs) hprog
    simp [hiff, hs, ho]

/-- A word that is no command is not legal (R72, R73). -/
theorem legalWord_of_decode_error {w : Word} {r : Reject} (h : decode w = .error r) : legalWord w = false := by
  obtain ⟨-, hlegal, -⟩ := wordsDecodeIffOneRowMatches w
  rw [← Bool.not_eq_true, ← hlegal]
  rintro ⟨i, hi⟩
  simp [h] at hi

/-- The start of the host's command leaves its operation in progress, unless the command has one step or the word is
illegal (R103, R210). -/
theorem hostRunning_or_done_of_startsHost {s t : State} (hstart : StartsHost s) (hsusp : SuspIsHosts s)
    (h : sequencerEdge s = .next t) :
    HostRunning t ∨ legalWord s.intake.cmdSlot = false ∨
      ∃ i, decode s.intake.cmdSlot = .ok i ∧ stepsOf i = 1 := by
  obtain ⟨ho, ha⟩ := hstart
  rw [sequencerEdge_of_arbitrate_host ho ha] at h
  cases hd : decode s.intake.cmdSlot with
  | error r => exact .inr (.inl (legalWord_of_decode_error hd))
  | ok i =>
    by_cases h1 : stepsOf i = 1
    · exact .inr (.inr ⟨i, rfl, h1⟩)
    · refine .inl ((start_hostRunning (s := s.setCmdFull false) hd ?_ h).2 (.inr ⟨rfl, h1⟩))
      intro hs
      have htick := (hsusp hs).1
      simp [ho] at htick

/-- R107's condition after a processed edge, the next cycle not being in reset. -/
theorem hostDone_afterEdge_iff {s u : State} (h : (afterEdge s u).env.pins.rstN = true) :
    hostDone (afterEdge s u) = true ↔ (afterEdge s u).intake.cmdFull = false ∧ ¬ HostRunning u := by
  rw [hostDone_iff h, HostRunning, afterEdge_seq, suspended_afterEdge, HostRunning]

/-- Settles O49: a full slot stays full until the host's command is started, which leaves an operation running unless
the command is done at once; a running operation runs on until its last step; and without an offered word neither a full
slot nor a running operation comes about. -/
theorem hostDoneMeansCompleted : Obligations.HostDoneMeansCompleted := by
  refine ⟨fun s t hinv hl h hbefore hafter => ?_, fun s t hinv hl h hbefore hv => ?_⟩
  · have hsusp := hinv.suspIsHosts
    have hfull := step_cmdFull hl h
    obtain ⟨u, hu, rfl⟩ := step_next_of_live hl h
    cases hrst : (afterEdge s u).env.pins.rstN with
    | false => exact .inr (.inr rfl)
    | true =>
      obtain ⟨hfree, hidle⟩ := (hostDone_afterEdge_iff hrst).1 hafter
      rw [← Bool.not_eq_true, hfull] at hfree
      rw [← Bool.not_eq_true, hostDone_iff hl.2] at hbefore
      by_cases hstart : StartsHost s
      · have hdone := (hostRunning_or_done_of_startsHost hstart hsusp hu).resolve_left hidle
        exact .inr (.inl ⟨hstart.1, hstart.2, hdone⟩)
      · have hslot : s.intake.cmdFull = false := by
          rw [← Bool.not_eq_true]
          exact fun hf => hfree (.inr ⟨hf, hstart⟩)
        have hrun : HostRunning s := by
          by_contra hn
          exact hbefore ⟨hslot, hn⟩
        exact .inl ((hostRunning_or_last_of_sequencerEdge hrun hsusp hu).resolve_left hidle)
  · have hfull := step_cmdFull hl h
    obtain ⟨hslot, hidle⟩ := (hostDone_iff hl.2).1 hbefore
    obtain ⟨u, hu, rfl⟩ := step_next_of_live hl h
    cases hrst : (afterEdge s u).env.pins.rstN with
    | false => exact hostDone_of_reset hrst
    | true =>
      have hstart : ¬ StartsHost s := fun hstart => by simp [cmdFull_of_startsHost hstart] at hslot
      refine (hostDone_afterEdge_iff hrst).2 ⟨?_, not_hostRunning_of_sequencerEdge hidle hstart hu⟩
      rw [← Bool.not_eq_true, hfull]
      simp [hv, hslot]

end Sys2Proof.Machine
end

section
namespace Sys2Proof.Machine

/-! SUPPORT. The debounce events of an edge: which micro-step writes the debounce registers, and the history that a run
keeps; O56, O15. -/

/-! ### Events -/

/-- What micro-step k of a command does to the debounce registers (R121, R122, R124). -/
def microEvents (i : Instr) (k : Nat) (s : State) : List DebEvent :=
  match i with
  | .record d => [.sample d]
  | .keysample => if k = 19 then [.sample (keysampleRaw s)] else []
  | .updedge => [.update]
  | .nop | .dbread | .ledwrite _ | .adcread _ | .xfer _ => []

/-- The debounce registers after a list of events. -/
def applyEvents (n : Nat) (d : Debounce) (events : List DebEvent) : Debounce := events.foldl (debApply n) d

@[simp] theorem applyEvents_nil (n : Nat) (d : Debounce) : applyEvents n d [] = d := rfl

/-- A history that goes on from the registers that the earlier events left. -/
theorem debAfter_append_events (c : Config) (h h' : List DebEvent) :
    debAfter c (h ++ h') = applyEvents c.nWin (debAfter c h) h' := debAfter_append c h h'

theorem microBody_deb (i : Instr) (k : Nat) (s : State) :
    (microBody i k s).deb = applyEvents s.cfg.nWin s.deb (microEvents i k s) := by
  cases i with
  | nop | record d | dbread | updedge => rfl
  | keysample =>
    simp only [microBody, microEvents]
    rcases keysampleStep_cases k s with
      ⟨hk, e⟩ | ⟨hk, e⟩ | ⟨hk, e⟩ | ⟨hk, e⟩ | ⟨-, hk, -, e⟩ | ⟨-, -, hk, e⟩ <;> rw [e]
    case inr.inr.inr.inl =>
      rw [if_pos hk]
      rfl
    all_goals
      rw [if_neg (by omega)]
      rfl
  | ledwrite d =>
    simp only [microBody, microEvents]
    rcases ledwriteStep_cases k s d with
      ⟨-, e⟩ | ⟨-, e⟩ | ⟨-, e⟩ | ⟨-, -, e⟩ | ⟨-, -, e⟩ | ⟨-, -, e⟩ <;> simp [e]
  | adcread c =>
    simp only [microBody, microEvents]
    rcases adcreadStep_cases k s c with
      ⟨-, e⟩ | ⟨-, e⟩ | ⟨-, -, e⟩ | ⟨-, e⟩ | ⟨-, -, e⟩ | ⟨-, -, e⟩ | ⟨-, e⟩
    case inr.inr.inr.inr.inr.inr =>
      obtain ⟨-, hdeb, -⟩ := adcFinal_fields s c
      rw [e, hdeb, applyEvents_nil]
    all_goals simp [e]
  | xfer d =>
    simp only [microBody, microEvents]
    rcases xferStep_cases k s d with ⟨-, e⟩ | ⟨-, e⟩ <;> simp [e]

/-- The events of a start are those of micro-step 0. -/
theorem microEvents_zero (i : Instr) (s : State) : microEvents i 0 s = startedEvents i := by
  cases i <;> rfl

/-- What the start of a word does to the debounce registers; an illegal word starts nothing (R103, R210). -/
def eventsOfWord (w : Word) : List DebEvent :=
  match decode w with
  | .ok i => startedEvents i
  | .error _ => []

theorem eventsOfWord_tickWord : eventsOfWord tickWord = [] := by
  rw [eventsOfWord, decode_tickWord]
  rfl

theorem eventsOfWord_initWord {cnt : BitVec 3} (h : cnt.toNat < 4) : eventsOfWord (initWord cnt) = [] := by
  rw [eventsOfWord, decode_initWord cnt h]
  rfl

theorem start_deb {src : Owner} {w : Word} {s t : State} (h : start src w s = .next t) :
    t.deb = applyEvents s.cfg.nWin s.deb (eventsOfWord w) := by
  unfold eventsOfWord
  rcases start_next h with ⟨⟨r, hd⟩, rfl⟩ | ⟨i, hd, rfl⟩ <;> rw [hd]
  · rfl
  · simp [microBody_deb, microEvents_zero]

/-! ### The events of an edge, by what the edge does -/

theorem debEventsOf_of_startsHost {s : State} (h : StartsHost s) :
    debEventsOf s = eventsOfWord s.intake.cmdSlot := by
  obtain ⟨ho, ha⟩ := h
  unfold debEventsOf
  rw [if_neg (by simp [ho, Owner.busy]), if_pos (by simp [ho, ha])]
  rfl

theorem debEventsOf_of_not_busy {s : State} (hb : s.seq.owner.busy = false) (h : ¬ StartsHost s) :
    debEventsOf s = [] := by
  unfold debEventsOf
  rw [if_neg (by simp [hb]), if_neg (by simpa [StartsHost] using h)]

/-- An operation in progress writes the debounce registers at KEYSAMPLE's step 19 only: no other command that writes
them has a step after its first (R105, R253). -/
theorem debEventsOf_of_busy {s : State} {i : Instr} (hb : s.seq.owner.busy = true) (hd : decode s.seq.op = .ok i)
    (h1 : 1 ≤ s.seq.step.toNat) (hlt : s.seq.step.toNat < stepsOf i) :
    debEventsOf s = microEvents i s.seq.step.toNat s := by
  have hsample : (s.seq.owner.busy && decide (s.seq.op = tickWord) && decide (s.seq.step = 19)) = true ↔
      i = .keysample ∧ s.seq.step.toNat = 19 := by
    simp [hb, eq_tickWord_iff hd, ← BitVec.toNat_inj]
  have ho : s.seq.owner ≠ .none := by
    intro ho
    simp [ho, Owner.busy] at hb
  unfold debEventsOf
  rw [if_congr hsample rfl rfl, if_neg (c := (_ && _) = true) (by simp [ho])]
  cases i with
  | nop | record d | dbread | updedge =>
    simp only [stepsOf] at hlt
    omega
  | keysample => simp [microEvents]
  | ledwrite d | adcread c | xfer d => simp [microEvents]

/-- The sequencer's part of an edge does to the debounce registers what the edge's events say (R253). -/
theorem sequencerEdge_deb {s t : State} (hinv : SeqInv s) (h : sequencerEdge s = .next t) :
    t.deb = applyEvents s.cfg.nWin s.deb (debEventsOf s) := by
  rcases sequencerEdge_next h with ⟨ho, hs⟩ | ⟨ho, rfl⟩ | ⟨hp, hs⟩ | ⟨hb, -, hs⟩
  · have hb : s.seq.owner.busy = false := by rw [ho]; rfl
    have hquiet (ha : arbitrate s ≠ .host) : debEventsOf s = [] := debEventsOf_of_not_busy hb fun h => ha h.2
    rcases startSelected_next hs with ⟨ha, rfl⟩ | ⟨ha, rfl⟩ | ⟨ha, hs⟩ | ⟨ha, hs⟩ | ⟨ha, hs⟩
    · rw [hquiet (by simp [ha]), applyEvents_nil]
    · rw [hquiet (by simp [ha])]
      rfl
    · rw [hquiet (by simp [ha]), start_deb hs, eventsOfWord_initWord (initCnt_lt_of_arbitrate_init ha)]
    · rw [hquiet (by simp [ha]), start_deb hs, eventsOfWord_tickWord]
      rfl
    · rw [debEventsOf_of_startsHost ⟨ho, ha⟩, start_deb hs]
      rfl
  · rw [debEventsOf_of_not_busy (by rw [ho]; rfl) (by simp [ho])]
    split <;> rfl
  · obtain ⟨-, ho, hop, -, -⟩ := (preemptCondition_iff s).1 hp
    have hb : s.seq.owner.busy = true := by rw [ho]; rfl
    obtain ⟨i, h1, hrun⟩ := AboutToRun.of_seqInv hb hinv
    obtain ⟨c, rfl⟩ := opcOf_encode_eq_six.1 (encode_of_decode hrun.decoded ▸ hop)
    rw [debEventsOf_of_busy hb hrun.decoded h1 hrun.hasStep, start_deb hs, eventsOfWord_tickWord]
    rfl
  · obtain ⟨i, h1, hrun⟩ := AboutToRun.of_seqInv hb hinv
    obtain ⟨j, hd, hlt, rfl⟩ := stepInProgress_next hs
    rw [debEventsOf_of_busy hb hd h1 hlt, advance_deb, microBody_deb]

/-- Settles O56: a reset edge leaves the registers of the empty history; at any other edge the sequencer's part applies
the edge's events, and the other events of the edge touch neither the debounce registers nor the parameters. -/
theorem stepExtendsTheDebounceHistory : Obligations.StepExtendsTheDebounceHistory := by
  intro s t h hinv hdeb hstep
  obtain ⟨-, -, hseq⟩ := inv_iff.1 hinv
  rcases (step_next hstep).2 with ⟨hr, rfl⟩ | ⟨hr, u, hu, rfl⟩
  · simp [hr, resetEdge, State.resetWith]
  · rw [if_pos hr, afterEdge_deb, afterEdge_cfg, (sequencerEdge_cfg_deb hu).1, debAfter_append_events, ← hdeb]
    exact sequencerEdge_deb hseq hu

/-! ### Runs from reset -/

theorem step_cfg {s t : State} (h : step s = .next t) : t.cfg = s.cfg := by
  rcases (step_next h).2 with ⟨-, rfl⟩ | ⟨-, u, hu, rfl⟩
  · rfl
  · rw [afterEdge_cfg, (sequencerEdge_cfg_deb hu).1]

theorem exists_next_of_start (src : Owner) (w : Word) (s : State) : ∃ t, start src w s = .next t := by
  rcases start_total src w s with ⟨_, -, h⟩ | ⟨_, -, h⟩ <;> exact ⟨_, h⟩

/-- An idle edge answers a next state, whatever it selects (R103). -/
theorem exists_next_of_startSelected (s : State) : ∃ t, startSelected s = .next t := by
  unfold startSelected
  cases arbitrate s with
  | nothing | ext => exact ⟨_, rfl⟩
  | init | tick | host => exact exists_next_of_start ..

/-- An operation in progress has the step that `STEP` names, so that it does not stop (R104). -/
theorem exists_next_of_stepInProgress {s : State} (hb : s.seq.owner.busy = true) (hinv : SeqInv s) :
    ∃ t, stepInProgress s = .next t := by
  obtain ⟨i, -, hrun⟩ := AboutToRun.of_seqInv hb hinv
  exact ⟨_, by rw [stepInProgress, hrun.decoded]; exact exec_of_lt hrun.hasStep⟩

theorem exists_next_of_sequencerEdge {s : State} (hinv : SeqInv s) : ∃ t, sequencerEdge s = .next t := by
  cases hp : preemptCondition s with
  | true =>
    rw [sequencerEdge_of_preempt hp]
    exact exists_next_of_start ..
  | false =>
    cases ho : s.seq.owner with
    | none => simpa [sequencerEdge, ho] using exists_next_of_startSelected s
    | ext => simp [sequencerEdge, ho]
    | init | tick | host =>
      have hb : s.seq.owner.busy = true := by rw [ho]; rfl
      rw [sequencerEdge_of_busy hb hp]
      exact exists_next_of_stepInProgress hb hinv

/-- From a state that meets the invariant an edge answers a next state (R211). -/
theorem exists_next_of_inv {s : State} (hinv : Inv s) : ∃ t, step s = .next t := by
  obtain ⟨hlegal, -, hseq⟩ := inv_iff.1 hinv
  cases hr : s.env.pins.rstN with
  | true =>
    obtain ⟨u, hu⟩ := exists_next_of_sequencerEdge hseq
    exact ⟨_, by rw [step_live hlegal hr, hu]; rfl⟩
  | false => exact ⟨resetEdge s, by simp [step, clockEdge, hlegal, hr]⟩

theorem runEdges_succ {n : Nat} {s t : State} (h : step s = .next t) : runEdges (n + 1) s = runEdges n t := by
  rw [runEdges, h]

theorem historyOf_succ {n : Nat} {s t : State} {h : List DebEvent} (hstep : step s = .next t) :
    historyOf (n + 1) s h = historyOf n t (if s.env.pins.rstN then h ++ debEventsOf s else []) := by
  rw [historyOf, hstep]

/-- A run from a state that meets the invariant and follows a history completes and goes on following it. -/
theorem runEdges_follows_history (n : Nat) {s : State} {h : List DebEvent} (hinv : Inv s)
    (hdeb : s.deb = debAfter s.cfg h) :
    ∃ t, runEdges n s = .next t ∧ t.cfg = s.cfg ∧ t.deb = debAfter s.cfg (historyOf n s h) := by
  induction n generalizing s h with
  | zero => exact ⟨s, rfl, rfl, hdeb⟩
  | succ n ih =>
    obtain ⟨u, hu⟩ := exists_next_of_inv hinv
    rw [runEdges_succ hu, historyOf_succ hu, ← step_cfg hu]
    exact ih (stepKeepsTheInvariant s u hinv hu) (stepExtendsTheDebounceHistory s u h hinv hdeb hu)

/-- Settles O15: the reset state of a legal block meets the invariant and follows the empty history. -/
theorem runsFollowTheirDebounceHistory : Obligations.RunsFollowTheirDebounceHistory :=
  fun _ e n hlegal => runEdges_follows_history n (inv_resetWith e hlegal) rfl

end Sys2Proof.Machine
end

section
namespace Sys2Proof.Machine

/-! SUPPORT. The commands of one step that the debounce family has, and the lanes of its registers; O10, O11, O12, O13,
O14, O19. -/

/-! ### One-step commands -/

section
variable {i : Instr} {s : State}

/-- A command of one step returns after it (R104, R105). -/
theorem exec_of_oneStep (h1 : stepsOf i = 1) (hstep : s.seq.step.toNat = 0) :
    exec i s = .next (finish (microBody i 0 s)) := by
  rw [exec_of_lt (by omega), hstep, advance_of_last (by rw [microBody_step, hstep, h1])]

/-- After a one-step command of the host the sequencer is idle (R104). -/
theorem exec_of_oneStep_host (h1 : stepsOf i = 1) (hstep : s.seq.step.toNat = 0) (ho : s.seq.owner = .host) :
    exec i s = .next (idled (microBody i 0 s)) := by
  rw [exec_of_oneStep h1 hstep, finish_host (by rw [microBody_owner, ho])]
  rfl

/-- UPDEDGE writes the debounce registers as R124 says, whoever owns it. -/
theorem exec_updedge_deb {t : State} (h : exec .updedge s = .next t) : t.deb = updateEdges s.deb := by
  obtain ⟨-, rfl⟩ := exec_next h
  rw [advance_deb]
  rfl

end

/-- Settles O10: RECORD is one step, the record primitive on its data byte. -/
theorem recordStoresTheGivenSample : Obligations.RecordStoresTheGivenSample := fun d _ hstep ho =>
  ⟨BitVec.append_def 0x10#8 d, rfl, exec_of_oneStep_host rfl hstep ho⟩

/-- Settles O11: DBREAD is one step, which writes the fold to `RESULT`. -/
theorem dbreadReadsTheFold : Obligations.DbreadReadsTheFold := fun s hstep ho =>
  ⟨rfl, rfl, foldAnd s.deb.ring, foldAnd_getLsbD s.deb.ring, exec_of_oneStep_host rfl hstep ho⟩

/-- Settles O12: UPDEDGE is one step, the update with the fold of the ring. -/
theorem updedgeComputesTheEdges : Obligations.UpdedgeComputesTheEdges := fun s hstep ho =>
  ⟨rfl, rfl, foldAnd s.deb.ring, foldAnd_getLsbD s.deb.ring, exec_of_oneStep_host rfl hstep ho⟩

/-! ### Edge masks -/

/-- The bits of q that differ from p's are those that p lacks. -/
theorem xor_and_eq_and_not (p q : Byte) : (p ^^^ q) &&& q = q &&& ~~~p := by
  ext i hi
  cases hp : p[i] <;> cases hq : q[i] <;> simp [hp, hq]

/-- `DOWN` holds the bits of the fold that the snapshot lacks (R127). -/
theorem updateEdges_down_eq_pressed (d : Debounce) : (updateEdges d).down = foldAnd d.ring &&& ~~~d.prev :=
  xor_and_eq_and_not d.prev (foldAnd d.ring)

/-- `UP` holds the bits of the snapshot that the fold lacks (R127). -/
theorem updateEdges_up_eq_released (d : Debounce) : (updateEdges d).up = d.prev &&& ~~~foldAnd d.ring := by
  rw [updateEdges_up, BitVec.xor_comm]
  exact xor_and_eq_and_not (foldAnd d.ring) d.prev

/-- Settles O13: bit by bit, the masks of R124 are those of R127. -/
theorem edgeMasksAreDisjoint : Obligations.EdgeMasksAreDisjoint := by
  intro s hstep
  have hexec := exec_of_oneStep (i := .updedge) rfl hstep
  refine ⟨_, hexec, ?_⟩
  rw [exec_updedge_deb hexec]
  exact ⟨updateEdges_down_eq_pressed _, updateEdges_up_eq_released _, updateEdges_masks_disjoint _⟩

/-- Settles O14: the first update leaves the fold in `PREV` and the ring as it was, so that the second one compares the
fold with itself. -/
theorem secondUpdedgeIsEmpty : Obligations.SecondUpdedgeIsEmpty := by
  intro s t s' t' _ _ hfirst hsame hsecond
  have hprev : s'.deb.prev = foldAnd s'.deb.ring := by
    rw [hsame, exec_updedge_deb hfirst, updateEdges_prev, updateEdges_ring]
  rw [exec_updedge_deb hsecond, updateEdges_down, updateEdges_up, hprev, BitVec.xor_self]
  exact ⟨BitVec.zero_and, BitVec.zero_and⟩

/-! ### Lanes -/

/-- Bit i of the fold is the AND of lane i of the ring (R120, R125). -/
theorem foldAnd_getLsbD_eq_lane (ring : List Byte) {i : Nat} (hi : i < 8) :
    (foldAnd ring).getLsbD i = (ring.map fun v => v.getLsbD i).all id := by
  rw [foldAnd_getLsbD ring i hi, List.all_map]
  rfl

/-- Settles O19: the fold ANDs each lane by itself, a record writes one entry, and the masks are bitwise. -/
theorem debounceLanesAreIndependent : Obligations.DebounceLanesAreIndependent := by
  intro n i d d' v v' hi hring hpos hprev hv
  have hfold : (foldAnd d.ring).getLsbD i = (foldAnd d'.ring).getLsbD i := by
    rw [foldAnd_getLsbD_eq_lane _ hi, foldAnd_getLsbD_eq_lane _ hi, hring]
  refine ⟨hfold, ?_, ?_, ?_, hfold, hfold⟩
  · rw [recordSample_ring, recordSample_ring, List.map_set, List.map_set, hring, hpos, hv]
  · rw [updateEdges_down, updateEdges_down, BitVec.getLsbD_and, BitVec.getLsbD_and, BitVec.getLsbD_xor,
      BitVec.getLsbD_xor, hprev, hfold]
  · rw [updateEdges_up, updateEdges_up, BitVec.getLsbD_and, BitVec.getLsbD_and, BitVec.getLsbD_xor,
      BitVec.getLsbD_xor, hprev, hfold]

end Sys2Proof.Machine
end

section
namespace Sys2Proof.Machine

/-! SUPPORT. The window of the last `N_WIN` samples: the ring is that window, turned by `POS`; O16, O17, O18. -/

/-! ### The fold -/

/-- A bit of the fold is 1 iff every entry has it (R120). -/
theorem foldAnd_getLsbD_iff (ring : List Byte) {i : Nat} (hi : i < 8) :
    (foldAnd ring).getLsbD i = true ↔ ∀ v ∈ ring, v.getLsbD i = true := by
  rw [foldAnd_getLsbD ring i hi, List.all_eq_true]

/-- The fold depends only on which values are in the ring. -/
theorem foldAnd_congr {ring ring' : List Byte} (h : ∀ v, v ∈ ring ↔ v ∈ ring') : foldAnd ring = foldAnd ring' := by
  refine BitVec.eq_of_getLsbD_eq fun i hi => ?_
  rw [Bool.eq_iff_iff, foldAnd_getLsbD_iff ring hi, foldAnd_getLsbD_iff ring' hi]
  simp only [h]

/-- A zero entry makes the fold zero. -/
theorem foldAnd_eq_zero {ring : List Byte} (h : 0 ∈ ring) : foldAnd ring = 0 := by
  refine BitVec.eq_of_getLsbD_eq fun i hi => ?_
  rw [Bool.eq_iff_iff, foldAnd_getLsbD_iff ring hi]
  exact ⟨fun hall => hall 0 h, fun hbit => by simp at hbit⟩

/-! ### The window -/

/-- The last n samples, the zeros of the reset ring standing for those before the first one (R126, R240). -/
def window (n : Nat) (vs : List Byte) : List Byte := lastN n (List.replicate n 0 ++ vs)

theorem window_eq_drop (n : Nat) (vs : List Byte) : window n vs = (List.replicate n 0 ++ vs).drop vs.length := by
  simp [window, lastN]

@[simp] theorem window_nil (n : Nat) : window n [] = List.replicate n 0 := by simp [window_eq_drop]

/-- One more sample pushes the oldest one out. -/
theorem window_append_singleton {n : Nat} (hn : 1 ≤ n) (vs : List Byte) (v : Byte) :
    window n (vs ++ [v]) = (window n vs).tail ++ [v] := by
  rw [window_eq_drop, window_eq_drop, List.tail_drop, ← List.append_assoc, List.length_append,
    List.drop_append_of_le_length (by simp; omega)]
  rfl

theorem window_of_le {n : Nat} {vs : List Byte} (h : n ≤ vs.length) : window n vs = lastN n vs := by
  simp [window_eq_drop, lastN, List.drop_append, h]

theorem zero_mem_window {n : Nat} {vs : List Byte} (h : vs.length < n) : 0 ∈ window n vs := by
  rw [window_eq_drop, List.drop_append_of_le_length (by simp; omega), List.drop_replicate]
  exact List.mem_append_left _ (List.mem_replicate.2 ⟨by omega, rfl⟩)

/-- Entry k of the samples, one of the last n, is in the window. -/
theorem window_getElem? {n k : Nat} {vs : List Byte} (hk : vs.length ≤ k + n) :
    (window n vs)[k + n - vs.length]? = vs[k]? := by
  rw [window_eq_drop, List.getElem?_drop, show vs.length + (k + n - vs.length) = n + k by omega,
    List.getElem?_append_right (by simp)]
  simp

/-! ### The ring is the window -/

/-- Writing at the position and moving it on drops the oldest entry and appends the new one. -/
theorem rotate_set_succ {ring : List Byte} {p : Nat} (hp : p < ring.length) (v : Byte) :
    (ring.set p v).rotate (p + 1) = (ring.rotate p).tail ++ [v] := by
  calc (ring.set p v).rotate (p + 1)
      = (ring.take p ++ [v] ++ ring.drop (p + 1)).rotate (ring.take p ++ [v]).length := by
        simp [List.set_eq_take_append_cons_drop, hp, hp.le]
    _ = ring.drop (p + 1) ++ (ring.take p ++ [v]) := List.rotate_append_length_eq _ _
    _ = (ring.rotate p).tail ++ [v] := by
        rw [List.rotate_eq_drop_append_take hp.le, List.tail_append_of_ne_nil (by simpa using hp), List.tail_drop,
          List.append_assoc]

/-- The ring, read from `POS` on, is the window of the samples vs (R121, R126). -/
structure HoldsWindow (n : Nat) (vs : List Byte) (d : Debounce) : Prop where
  length : d.ring.length = n
  pos : d.pos.toNat = vs.length % n
  ring : d.ring.rotate d.pos.toNat = window n vs

theorem holdsWindow_reset (c : Config) : HoldsWindow c.nWin [] (Debounce.reset c) where
  length := List.length_replicate
  pos := (Nat.zero_mod _).symm
  ring := by simp [Debounce.reset]

theorem HoldsWindow.pos_lt {n : Nat} {vs : List Byte} {d : Debounce} (h0 : 1 ≤ n) (h : HoldsWindow n vs d) :
    d.pos.toNat < d.ring.length := by
  rw [h.pos, h.length]
  exact Nat.mod_lt _ h0

theorem HoldsWindow.afterSample {n : Nat} {vs : List Byte} {d : Debounce} (h0 : 1 ≤ n) (h1 : n ≤ 128)
    (h : HoldsWindow n vs d) (v : Byte) : HoldsWindow n (vs ++ [v]) (recordSample n v d) := by
  have hlt := h.pos_lt h0
  obtain ⟨hlen, hpos, hring⟩ := h
  have hnext : (recordSample n v d).pos.toNat = (d.pos.toNat + 1) % n := by
    rw [recordSample_pos, BitVec.toNat_ofNat, Nat.mod_eq_of_lt]
    exact (Nat.mod_lt _ h0).trans_le h1
  refine ⟨by simpa using hlen, ?_, ?_⟩
  · rw [hnext, hpos, Nat.mod_add_mod, List.length_append, List.length_singleton]
  · rw [hnext, recordSample_ring, ← hlen, ← List.length_set (as := d.ring), List.rotate_mod, rotate_set_succ hlt, hring,
      List.length_set, hlen, window_append_singleton h0]

theorem windowOk_iff {c : Config} : c.windowOk = true ↔ 1 ≤ c.nWin ∧ c.nWin ≤ 128 := by simp [Config.windowOk]

/-- The window of every history (R126). -/
theorem holdsWindow_debAfter {c : Config} (hw : c.windowOk = true) (events : List DebEvent) :
    HoldsWindow c.nWin (samplesOf events) (debAfter c events) := by
  obtain ⟨h0, h1⟩ := windowOk_iff.1 hw
  induction events using List.reverseRecOn with
  | nil => exact holdsWindow_reset c
  | append_singleton events e ih =>
    rw [samplesOf_append]
    cases e with
    | sample raw =>
      rw [debAfter_sample, samplesOf_sample]
      exact ih.afterSample h0 h1 raw
    | update =>
      rw [debAfter_update, samplesOf_update, List.append_nil]
      exact ⟨ih.length, ih.pos, ih.ring⟩

theorem HoldsWindow.mem_ring {n : Nat} {vs : List Byte} {d : Debounce} (h : HoldsWindow n vs d) (v : Byte) :
    v ∈ d.ring ↔ v ∈ window n vs := by
  rw [← h.ring, List.mem_rotate]

/-- Sample k, one of the last n, is in the ring at its place (R126). -/
theorem HoldsWindow.getElem?_ring {n k : Nat} {vs : List Byte} {d : Debounce} (h : HoldsWindow n vs d)
    (hk : k < vs.length) (hlast : vs.length ≤ k + n) : d.ring[k % n]? = vs[k]? := by
  obtain ⟨hlen, hpos, hring⟩ := h
  have hplace : (k + n - vs.length + vs.length % n) % n = k % n := by
    rw [Nat.add_mod_mod, Nat.sub_add_cancel hlast, Nat.add_mod_right]
  rw [← window_getElem? hlast, ← hring, List.getElem?_rotate (by omega), hlen, hpos, hplace]

/-- The fold is the AND of the last n samples, or zero while there are fewer (R126). -/
theorem HoldsWindow.foldAnd_ring {n : Nat} {vs : List Byte} {d : Debounce} (h : HoldsWindow n vs d) :
    foldAnd d.ring = if n ≤ vs.length then foldAnd (lastN n vs) else 0 := by
  rw [foldAnd_congr h.mem_ring]
  split_ifs with hfull
  · rw [window_of_le hfull]
  · exact foldAnd_eq_zero (zero_mem_window (by omega))

/-- Settles O16: the ring is the window of the history's samples, turned by `POS`. -/
theorem windowHoldsTheLastSamples : Obligations.WindowHoldsTheLastSamples := by
  intro c events hw
  have h := holdsWindow_debAfter hw events
  refine ⟨h.length, h.pos, fun k hk hlast => ?_, h.foldAnd_ring⟩
  rw [List.getD_eq_getElem?_getD, h.getElem?_ring hk hlast, ← List.getD_eq_getElem?_getD]

/-- A bit of the fold needs a full window of samples that all have it (R130). -/
theorem samples_of_foldAnd_debAfter {c : Config} {events : List DebEvent} {i : Nat} (hw : c.windowOk = true)
    (hi : i < 8) (hbit : (foldAnd (debAfter c events).ring).getLsbD i = true) :
    c.nWin ≤ (samplesOf events).length ∧ ∀ v ∈ lastN c.nWin (samplesOf events), v.getLsbD i = true := by
  rw [(holdsWindow_debAfter hw events).foldAnd_ring] at hbit
  split_ifs at hbit with hfull
  · exact ⟨hfull, (foldAnd_getLsbD_iff _ hi).1 hbit⟩
  · simp at hbit

/-- Settles O17: a bit of `DOWN` is a bit of the fold. -/
theorem transientsNeverRegisterAsPressed : Obligations.TransientsNeverRegisterAsPressed := by
  intro c events i hw hi hdown
  rw [debAfter_update, updateEdges_down, BitVec.getLsbD_and, Bool.and_eq_true] at hdown
  exact samples_of_foldAnd_debAfter hw hi hdown.2

/-- Settles O18: the sample just recorded is in the ring, so that a bit it lacks is not in the fold. -/
theorem slowToSetFastToClear : Obligations.SlowToSetFastToClear := by
  intro c events i hw hi
  refine ⟨samples_of_foldAnd_debAfter hw hi, fun v hv => ?_⟩
  have hmem : v ∈ (debAfter c (events ++ [.sample v])).ring := by
    rw [debAfter_sample, recordSample_ring]
    exact List.mem_set ((holdsWindow_debAfter hw events).pos_lt (windowOk_iff.1 hw).1) v
  rw [← Bool.not_eq_true, foldAnd_getLsbD_iff _ hi]
  intro hall
  simp [hall v hmem] at hv

end Sys2Proof.Machine
end

section
namespace Sys2Proof.Machine

/-! SUPPORT. The tables of the shift-register transactions, row by row (R140, R143, R145, R147), and what a row makes of
the machine; O21, O23, O25, O26. -/

/-! ### A row of a table as one micro-step -/

section
variable {i : Instr} {k : Nat} {s t : State}

/-- A row before the last one, and then `STEP + 1` (R104). -/
theorem exec_of_row (hk : s.seq.step.toNat = k) (hlt : k + 1 < stepsOf i) (hrow : microBody i k s = t) :
    exec i s = .next (t.setStep (s.seq.step + 1)) := by
  subst hk hrow
  rw [exec_of_lt (by omega), advance_of_lt (by rwa [microBody_step]), microBody_step]

/-- The last row, and then the return (R104). -/
theorem exec_of_last_row (hk : s.seq.step.toNat = k) (hlast : k + 1 = stepsOf i) (hrow : microBody i k s = t) :
    exec i s = .next (finish t) := by
  subst hk hrow
  rw [exec_of_lt (by omega), advance_of_last (by rwa [microBody_step])]

/-- After the last row of an operation of the host the sequencer is idle (R104). -/
theorem exec_of_last_row_host (hk : s.seq.step.toNat = k) (hlast : k + 1 = stepsOf i) (ho : s.seq.owner = .host)
    (hrow : microBody i k s = t) : exec i s = .next (idled t) := by
  have hot : t.seq.owner = .host := by rw [← hrow, microBody_owner, ho]
  rw [exec_of_last_row hk hlast hrow, finish_host hot]
  rfl

end

/-! ### The exchange -/

section
variable (b : Byte) (j : Nat) (s : State)

/-- At the steps 3j after the first the next bit is driven (R140). -/
theorem xchg_data (hj : 1 ≤ j) : xchg b (3 * j) s = s.setData (b.getLsbD (7 - j)) := by
  unfold xchg
  rw [if_pos (by omega), if_neg (by omega), show 3 * j / 3 = j by omega]
  rfl

/-- At the steps 3j + 1 the clock rises (R140). -/
theorem xchg_rise : xchg b (3 * j + 1) s = s.setSck true := by
  unfold xchg
  rw [if_neg (by omega), if_pos (by omega)]

/-- At the steps 3j + 2 the line is sampled and the clock falls (R140). -/
theorem xchg_sample : xchg b (3 * j + 2) s = (s.setAcc (shiftIn s.seq.acc s.env.pins.sdi)).setSck false := by
  unfold xchg
  rw [if_neg (by omega), if_neg (by omega)]
  rfl

end

/-- Settles O25: a received bit enters at the low end, and each step of the exchange is its row. -/
theorem exchangeFollowsItsTable : Obligations.ExchangeFollowsItsTable := by
  refine ⟨fun acc b => ⟨?_, fun i hi => ?_⟩, fun b s => ⟨rfl, ?_, ?_, ?_⟩⟩
  · rw [shiftIn_getLsbD, if_pos rfl]
  · rw [shiftIn_getLsbD, if_neg i.succ_ne_zero, decide_eq_true (by omega), Bool.true_and, Nat.add_sub_cancel]
  · exact fun j hj _ => xchg_data b j s hj
  · exact fun j _ => xchg_rise b j s
  · exact fun j _ => xchg_sample b j s

/-! ### XFER -/

/-- Before its last step XFER is the exchange (R147). -/
theorem xferStep_of_lt {k : Nat} (d : Byte) (s : State) (hk : k < 23) : xferStep d k s = xchg d k s := if_neg (by omega)

/-- The last step also writes the received byte to `RESULT` (R147). -/
theorem xferStep_last (d : Byte) (s : State) :
    xferStep d 23 s = ((s.setAcc (received s)).setSck false).setResult ((received s).setWidth 16) := rfl

/-- Settles O26: 23 rows of the exchange of d, and the last one with `RESULT`. -/
theorem xferFollowsItsTable : Obligations.XferFollowsItsTable := by
  intro d s ho
  have row {k : Nat} {t : State} (hk : k < 23) (hstep : s.seq.step.toNat = k) (hrow : xchg d k s = t) :
      exec (.xfer d) s = .next (t.setStep (s.seq.step + 1)) :=
    exec_of_row hstep (show k + 1 < 24 by omega) ((xferStep_of_lt d s hk).trans hrow)
  refine ⟨BitVec.append_def 0x70#8 d, rfl, ?_, ?_, ?_, ?_, ?_⟩
  · exact fun h => row (by omega) h rfl
  · exact fun j h1 h8 h => row (by omega) h (xchg_data d j s h1)
  · exact fun j h8 h => row (by omega) h (xchg_rise d j s)
  · exact fun j h7 h => row (by omega) h (xchg_sample d j s)
  · exact fun h => exec_of_last_row_host h rfl ho (xferStep_last d s)

/-! ### KEYSAMPLE -/

section
variable (j : Nat) (s : State)

/-- At the steps 3 + 2j the clock rises (R143). -/
theorem keysampleStep_rise (hj : j < 8) : keysampleStep (3 + 2 * j) s = s.setSck true := by
  rcases keysampleStep_cases (3 + 2 * j) s with ⟨h, -⟩ | ⟨h, -⟩ | ⟨h, -⟩ | ⟨h, -⟩ | ⟨-, -, -, e⟩ | ⟨-, -, h, -⟩
  case inr.inr.inr.inr.inl => exact e
  all_goals omega

/-- At the steps 4 + 2j the inverse of the line is sampled and the clock falls (R143). -/
theorem keysampleStep_sample :
    keysampleStep (4 + 2 * j) s = (s.setAcc (shiftIn s.seq.acc (!s.env.pins.dataI))).setSck false := by
  rcases keysampleStep_cases (4 + 2 * j) s with ⟨h, -⟩ | ⟨h, -⟩ | ⟨h, -⟩ | ⟨h, -⟩ | ⟨-, -, h, -⟩ | ⟨-, -, -, e⟩
  case inr.inr.inr.inr.inr => exact e
  all_goals omega

end

/-- Settles O21: the capture, eight pairs of rows, and the record with which the operation returns. -/
theorem keysampleFollowsItsTable : Obligations.KeysampleFollowsItsTable := by
  refine ⟨rfl, rfl, fun s => ?_⟩
  have row {k : Nat} {t : State} (hk : k < 19) (hstep : s.seq.step.toNat = k) (hrow : keysampleStep k s = t) :
      exec .keysample s = .next (t.setStep (s.seq.step + 1)) :=
    exec_of_row hstep (show k + 1 < 20 by omega) hrow
  refine ⟨?_, ?_, ?_, ?_, ?_, ?_⟩
  · exact fun h => row (by omega) h rfl
  · exact fun h => row (by omega) h rfl
  · exact fun h => row (by omega) h rfl
  · exact fun j h8 h => row (by omega) h (keysampleStep_rise j s h8)
  · exact fun j h8 h => row (by omega) h (keysampleStep_sample j s)
  · exact fun h => exec_of_last_row h rfl rfl

/-! ### LEDWRITE -/

section
variable (d : Byte) (j : Nat) (s : State)

/-- At the steps 1 + 3j the next bit is driven (R145). -/
theorem ledwriteStep_data (hj : j < 8) : ledwriteStep d (1 + 3 * j) s = s.setData (s.seq.xout.getLsbD (7 - j)) := by
  rcases ledwriteStep_cases (1 + 3 * j) s d with ⟨h, -⟩ | ⟨h, -⟩ | ⟨h, -⟩ | ⟨-, -, e⟩ | ⟨-, h, -⟩ | ⟨-, h, -⟩
  case inr.inr.inr.inl =>
    rw [e, show (1 + 3 * j) / 3 = j by omega]
    rfl
  all_goals omega

/-- At the steps 2 + 3j the clock falls (R145). -/
theorem ledwriteStep_fall (hj : j < 8) : ledwriteStep d (2 + 3 * j) s = s.setSck false := by
  rcases ledwriteStep_cases (2 + 3 * j) s d with ⟨h, -⟩ | ⟨h, -⟩ | ⟨h, -⟩ | ⟨-, h, -⟩ | ⟨-, -, e⟩ | ⟨-, h, -⟩
  case inr.inr.inr.inr.inl => exact e
  all_goals omega

/-- At the steps 3 + 3j the clock rises (R145). -/
theorem ledwriteStep_rise : ledwriteStep d (3 + 3 * j) s = s.setSck true := by
  rcases ledwriteStep_cases (3 + 3 * j) s d with ⟨h, -⟩ | ⟨h, -⟩ | ⟨h, -⟩ | ⟨-, h, -⟩ | ⟨-, h, -⟩ | ⟨-, -, e⟩
  case inr.inr.inr.inr.inr => exact e
  all_goals omega

end

/-- An edge of a LEDWRITE in progress is its own micro-step: only an ADCREAD is preempted (R194, R195). -/
theorem step_ledwrite {d : Byte} {s : State} (hl : live s) (ho : s.seq.owner = .host)
    (hop : s.seq.op = encode (.ledwrite d)) : step s = mapNext (afterEdge s) (exec (.ledwrite d) s) := by
  have hb : s.seq.owner.busy = true := by rw [ho]; rfl
  have hp : preemptCondition s = false := by
    rw [← Bool.not_eq_true, preemptCondition_iff, hop]
    rintro ⟨-, -, hsix, -⟩
    obtain ⟨c, hc⟩ := opcOf_encode_eq_six.1 hsix
    cases hc
  rw [step_live hl.1 hl.2, sequencerEdge_of_busy hb hp, stepInProgress, hop, decode_encode]

/-- Settles O23: eight triples of rows between the load of `XOUT` and the latch pulse, none of which an edge can leave
out. -/
theorem ledwriteFollowsItsTable : Obligations.LedwriteFollowsItsTable := by
  intro d s ho
  have row {k : Nat} {t : State} (hk : k < 26) (hstep : s.seq.step.toNat = k) (hrow : ledwriteStep d k s = t) :
      exec (.ledwrite d) s = .next (t.setStep (s.seq.step + 1)) :=
    exec_of_row hstep (show k + 1 < 27 by omega) hrow
  refine ⟨BitVec.append_def 0x50#8 d, rfl, ?_, ?_, ?_, ?_, ?_, ?_, fun hl => step_ledwrite hl ho⟩
  · exact fun h => row (by omega) h rfl
  · exact fun j h8 h => row (by omega) h (ledwriteStep_data d j s h8)
  · exact fun j h8 h => row (by omega) h (ledwriteStep_fall d j s h8)
  · exact fun j h8 h => row (by omega) h (ledwriteStep_rise d j s)
  · exact fun h => row (by omega) h rfl
  · exact fun h => exec_of_last_row_host h rfl ho rfl

end Sys2Proof.Machine
end

section
namespace Sys2Proof.Machine

open Host (Outcome)

/-! SUPPORT. Stretches of micro-steps: where a stretch of an operation leads and which line edges it makes (R251), and
how stretches make a whole operation. -/

/-! ### Line edges -/

/-- What the clock and the latch do along a trace: the data levels at the rising clock edges, and the numbers of falling
clock edges and of rising latch edges (R251). -/
structure LineEdges where
  rising : List Bool
  falling : Nat
  latch : Nat

/-- The edges of one trace and then those of another. -/
def LineEdges.append (e f : LineEdges) : LineEdges where
  rising := e.rising ++ f.rising
  falling := e.falling + f.falling
  latch := e.latch + f.latch

theorem LineEdges.append_assoc (e f g : LineEdges) : (e.append f).append g = e.append (f.append g) := by
  simp only [LineEdges.append, List.append_assoc, Nat.add_assoc]

/-- The line edges of a trace. -/
def edgesOf (trace : List PinRegs) : LineEdges where
  rising := dataAtRising trace
  falling := fallingEdges trace
  latch := latchPulses trace

theorem edgesOf_pair (a b : PinRegs) :
    edgesOf [a, b] =
      ⟨if !a.sck && b.sck then [b.data] else [], if a.sck && !b.sck then 1 else 0,
        if !a.llat && b.llat then 1 else 0⟩ :=
  rfl

/-- A trace has the edges of its first two entries and then those of the rest. -/
theorem edgesOf_cons_cons (a b : PinRegs) (trace : List PinRegs) :
    edgesOf (a :: b :: trace) = (edgesOf [a, b]).append (edgesOf (b :: trace)) := by
  rw [edgesOf_pair]
  simp only [edgesOf, dataAtRising, fallingEdges, latchPulses, LineEdges.append]
  split <;> rfl

/-- Where the clock stays and the latch does not rise there is no edge. -/
theorem edgesOf_quiet {a b : PinRegs} (hsck : b.sck = a.sck) (hlatch : b.llat = a.llat ∨ b.llat = false) :
    edgesOf [a, b] = ⟨[], 0, 0⟩ := by
  rw [edgesOf_pair, hsck]
  rcases hlatch with h | h <;> simp [h]

/-- Where only the clock goes high there is a rising edge, unless it was high. -/
theorem edgesOf_rise (a : PinRegs) :
    edgesOf [a, { a with sck := true }] = ⟨if a.sck then [] else [a.data], 0, 0⟩ := by
  rw [edgesOf_pair]
  cases a.sck <;> simp

/-- Where only the clock goes low there is a falling edge, unless it was low. -/
theorem edgesOf_fall (a : PinRegs) : edgesOf [a, { a with sck := false }] = ⟨[], if a.sck then 1 else 0, 0⟩ := by
  rw [edgesOf_pair]
  cases a.sck <;> simp

/-! ### Stretches of micro-steps -/

/-- The levels of the n cycles from cycle k on. -/
def levels (lv : Nat → Inputs) (k n : Nat) : List Inputs := (List.range' k n).map lv

theorem levels_add (lv : Nat → Inputs) (k m n : Nat) : levels lv k (m + n) = levels lv k m ++ levels lv (k + m) n := by
  simp only [levels, ← List.map_append, List.range'_append_1]

/-- A list of levels is that of its entries. -/
theorem levels_levelsAt {ps : List Inputs} {n : Nat} (h : ps.length = n) : levels (levelsAt ps) 0 n = ps := by
  subst h
  refine List.ext_getElem (by simp [levels]) fun m _ hm => ?_
  simp [levels, levelsAt, hm]

/-- s before micro-step k. -/
def beforeStep (k : Nat) (s : State) : State := s.setStep (BitVec.ofNat 7 k)

/-- In the cycle k of lv row k of i takes s to t, but for the bookkeeping; `STEP` and the input levels of s and t do not
matter. -/
def RowAt (i : Instr) (lv : Nat → Inputs) (k : Nat) (s t : State) : Prop :=
  microBody i k (withLevels (lv k) (beforeStep k s)) = withLevels (lv k) (beforeStep k t)

/-- The n micro-steps of i from step k on, one in each cycle of lv, lead from s to t with the line edges e; more
micro-steps follow. `STEP` and the input levels of s and t do not matter. -/
structure Stretch (i : Instr) (lv : Nat → Inputs) (k n : Nat) (s t : State) (e : LineEdges) : Prop where
  run : ∀ ps, ps ≠ [] → runOp i (levels lv k n ++ ps) (beforeStep k s) = runOp i ps (beforeStep (k + n) t)
  edges : ∀ ps, ps ≠ [] →
    edgesOf (pinTrace i (levels lv k n ++ ps) (beforeStep k s)) =
      e.append (edgesOf (pinTrace i ps (beforeStep (k + n) t)))

section
variable {i : Instr} {lv : Nat → Inputs} {k m n : Nat} {s t u : State} {e f : LineEdges}

/-- Seven bits hold every step of a command (R105). -/
theorem toNat_step (h : k < stepsOf i) : (BitVec.ofNat 7 k).toNat = k := by
  have := stepsOf_le i
  exact Nat.mod_eq_of_lt (by omega)

/-- The next micro-step has levels of its own, so that those of the state do not matter. -/
theorem runOp_withLevels {ps : List Inputs} (hps : ps ≠ []) (q : Inputs) :
    runOp i ps (withLevels q s) = runOp i ps s := by
  cases ps with
  | nil => exact absurd rfl hps
  | cons p ps => rfl

theorem pinTrace_withLevels (ps : List Inputs) (q : Inputs) : pinTrace i ps (withLevels q s) = pinTrace i ps s := by
  cases ps <;> rfl

/-- A micro-step makes the line edges between the pin registers before and after it. -/
theorem edgesOf_pinTrace_cons {p : Inputs} {ps : List Inputs} (h : exec i (withLevels p s) = .next t) :
    edgesOf (pinTrace i (p :: ps) s) = (edgesOf [s.pinr, t.pinr]).append (edgesOf (pinTrace i ps t)) := by
  have htail : ∃ tail, pinTrace i ps t = t.pinr :: tail := by
    cases ps <;> exact ⟨_, rfl⟩
  obtain ⟨tail, htail⟩ := htail
  simp only [pinTrace, h, htail]
  exact edgesOf_cons_cons _ _ _

theorem Stretch.refl : Stretch i lv k 0 s s ⟨[], 0, 0⟩ where
  run _ _ := rfl
  edges _ _ := by simp [LineEdges.append, levels]

theorem Stretch.trans (h : Stretch i lv k m s t e) (h' : Stretch i lv (k + m) n t u f) :
    Stretch i lv k (m + n) s u (e.append f) where
  run ps hps := by
    rw [levels_add, List.append_assoc, h.run _ (by simp [hps]), h'.run _ hps, Nat.add_assoc]
  edges ps hps := by
    rw [levels_add, List.append_assoc, h.edges _ (by simp [hps]), h'.edges _ hps, Nat.add_assoc, LineEdges.append_assoc]

/-- One row of a table, not its last one. -/
theorem Stretch.single (hlt : k + 1 < stepsOf i) (hrow : RowAt i lv k s t) :
    Stretch i lv k 1 s t (edgesOf [s.pinr, t.pinr]) := by
  have hk : (BitVec.ofNat 7 k).toNat = k := toNat_step (Nat.lt_of_succ_lt hlt)
  have hexec : exec i (withLevels (lv k) (beforeStep k s)) = .next (withLevels (lv k) (beforeStep (k + 1) t)) := by
    rw [exec_of_row hk hlt hrow]
    simp only [beforeStep, BitVec.ofNat_add]
    rfl
  refine ⟨fun ps hps => ?_, fun ps _ => ?_⟩
  · rw [← runOp_withLevels hps (lv k)]
    simp only [levels, List.range'_one, List.map_singleton, List.singleton_append, runOp, hexec]
  · rw [← pinTrace_withLevels ps (lv k)]
    exact edgesOf_pinTrace_cons hexec

/-- A row that leaves the clock as it is and does not raise the latch. -/
theorem Stretch.quiet (hlt : k + 1 < stepsOf i) (hrow : RowAt i lv k s t)
    (hsck : t.pinr.sck = s.pinr.sck) (hlatch : t.pinr.llat = s.pinr.llat ∨ t.pinr.llat = false) :
    Stretch i lv k 1 s t ⟨[], 0, 0⟩ :=
  edgesOf_quiet hsck hlatch ▸ .single hlt hrow

/-- A row that drives the clock high and no other line. -/
theorem Stretch.rise (hlt : k + 1 < stepsOf i) (hrow : RowAt i lv k s (s.setSck true)) :
    Stretch i lv k 1 s (s.setSck true) ⟨if s.pinr.sck then [] else [s.pinr.data], 0, 0⟩ :=
  edgesOf_rise s.pinr ▸ .single hlt hrow

/-- A row that drives the clock low and no other line. -/
theorem Stretch.fall (hlt : k + 1 < stepsOf i) (hrow : RowAt i lv k s t)
    (hpinr : t.pinr = { s.pinr with sck := false }) : Stretch i lv k 1 s t ⟨[], if s.pinr.sck then 1 else 0, 0⟩ := by
  rw [← edgesOf_fall, ← hpinr]
  exact .single hlt hrow

/-- n bits of c micro-steps each, every one with a falling and a rising clock edge: the states w j lie between them. -/
theorem Stretch.bits {c : Nat} (w : Nat → State) (b : Nat → Bool)
    (h : ∀ j, j < n → Stretch i lv (k + c * j) c (w j) (w (j + 1)) ⟨[b j], 1, 0⟩) :
    Stretch i lv k (c * n) (w 0) (w n) ⟨(List.range n).map b, n, 0⟩ := by
  induction n with
  | zero => exact .refl
  | succ n ih =>
    rw [List.range_succ, List.map_append]
    exact (ih fun j hj => h j (by omega)).trans (h n (by omega))

/-- All rows but the last, and then the last one: the whole operation (R104). -/
theorem Stretch.whole (h : Stretch i lv 0 n s t e) (hstep : s.seq.step.toNat = 0) (hlast : n + 1 = stepsOf i)
    (hrow : RowAt i lv n t u) :
    runOp i (levels lv 0 (n + 1)) s = .next (finish (withLevels (lv n) (beforeStep n u))) ∧
      edgesOf (pinTrace i (levels lv 0 (n + 1)) s) = e.append (edgesOf [t.pinr, u.pinr]) := by
  have hn : (BitVec.ofNat 7 n).toNat = n := toNat_step hlast.le
  have hs : beforeStep 0 s = s := by
    have hzero : BitVec.ofNat 7 0 = s.seq.step := BitVec.eq_of_toNat_eq hstep.symm
    unfold beforeStep
    rw [hzero]
    rfl
  have hexec := exec_of_last_row (s := withLevels (lv n) (beforeStep n t)) hn hlast hrow
  have hrun := h.run [lv n] (by simp)
  have hedges := h.edges [lv n] (by simp)
  rw [hs, Nat.zero_add] at hrun hedges
  rw [levels_add, Nat.zero_add]
  refine ⟨hrun.trans ?_, hedges.trans ?_⟩
  · simp only [runOp, hexec]
  · simp only [pinTrace, hexec, finish_pinr]
    rfl

end

/-- An operation of the host, or of the tick with nothing suspended, ends with the sequencer idle (R104). -/
theorem finish_eq_idled {s : State} (ho : s.seq.owner = .host ∨ s.seq.owner = .tick ∧ s.suspended = false) :
    finish s = idled s := by
  rcases finish_cases s with ⟨hi, -⟩ | ⟨ht, hs, -⟩ | ⟨-, -, e⟩
  · simp [hi] at ho
  · simp [ht, hs] at ho
  · exact e

section
variable (s : State)
@[simp] theorem idled_cfg : (idled s).cfg = s.cfg := rfl
@[simp] theorem idled_deb : (idled s).deb = s.deb := rfl
@[simp] theorem idled_seq : (idled s).seq = { s.seq with owner := .none, step := 0 } := rfl
@[simp] theorem idled_intake : (idled s).intake = s.intake := rfl
@[simp] theorem idled_susp : (idled s).susp = s.susp := rfl
@[simp] theorem idled_analog : (idled s).analog = s.analog := rfl
@[simp] theorem idled_pinr : (idled s).pinr = s.pinr := rfl
end

/-- The whole operation of an owner that leaves the sequencer idle, and the line edges of its trace. -/
theorem Stretch.whole_idled {i : Instr} {ps : List Inputs} {n : Nat} {s t u : State} {e f : LineEdges}
    (h : Stretch i (levelsAt ps) 0 n s t e) (hstep : s.seq.step.toNat = 0) (hlen : ps.length = n + 1)
    (hlast : n + 1 = stepsOf i) (hrow : RowAt i (levelsAt ps) n t u) (hf : edgesOf [t.pinr, u.pinr] = f)
    (ho : u.seq.owner = .host ∨ u.seq.owner = .tick ∧ u.suspended = false) :
    runOp i ps s = .next (withLevels (levelsAt ps n) (idled u)) ∧ edgesOf (pinTrace i ps s) = e.append f := by
  obtain ⟨hrun, hedges⟩ := h.whole hstep hlast hrow
  rw [levels_levelsAt hlen] at hrun hedges
  have hfin := finish_eq_idled (s := withLevels (levelsAt ps n) (beforeStep n u)) ho
  exact ⟨hrun.trans (congrArg Outcome.next hfin), hf ▸ hedges⟩

end Sys2Proof.Machine
end

section
namespace Sys2Proof.Machine

/-! SUPPORT. The shift-register transactions as whole operations, put together from their stretches; O22, O24, O27. -/

/-! ### The accumulator -/

/-- `ACC` after the first n bits of a transfer (R140, R143). -/
def shiftedIn (b : Nat → Bool) : Nat → Byte
  | 0 => 0
  | n + 1 => shiftIn (shiftedIn b n) (b n)

/-- The last bit is at the low end. -/
theorem shiftedIn_getLsbD (b : Nat → Bool) (n i : Nat) :
    (shiftedIn b n).getLsbD i = (decide (i < 8) && decide (i < n) && b (n - 1 - i)) := by
  induction n generalizing i with
  | zero => simp [shiftedIn]
  | succ n ih =>
    rw [shiftedIn, shiftIn_getLsbD, ih]
    rcases i with _ | i
    · simp
    · by_cases h8 : i + 1 < 8
      · have h7 : i < 8 := by omega
        simp [h8, h7, Nat.sub_sub, Nat.add_comm 1 i]
      · simp [h8]

/-- The first of eight bits is the most significant (R52). -/
theorem shiftedIn_eight (b : Nat → Bool) {j : Nat} (hj : j < 8) : (shiftedIn b 8).getLsbD (7 - j) = b j := by
  rw [shiftedIn_getLsbD, decide_eq_true (by omega), show 8 - 1 - (7 - j) = j by omega]
  simp

/-! ### The exchange -/

/-- The levels of `sdi_i` that an exchange samples which begins at step k (R140). -/
def sdiBits (lv : Nat → Inputs) (k j : Nat) : Bool := (lv (k + (3 * j + 2))).sdi

/-- s in an exchange of b that begins at step k, between the rising and the falling clock edge of bit j. -/
def exchanged (b : Byte) (lv : Nat → Inputs) (k j : Nat) (s : State) : State :=
  (((s.setData (b.getLsbD (7 - j))).setOe true).setAcc (shiftedIn (sdiBits lv k) j)).setSck true

/-- The rows of i from step k on are the first 23 of an exchange of b, in a block built with c. -/
structure ExchangeAt (i : Instr) (k : Nat) (b : Byte) (c : Config) : Prop where
  lt : k + 23 < stepsOf i
  row : ∀ t, t < 23 → ∀ s : State, s.cfg = c → microBody i (k + t) s = xchg b t s

section
variable {i : Instr} {k : Nat} {b : Byte} {s : State} (lv : Nat → Inputs)

theorem ExchangeAt.rowAt (h : ExchangeAt i k b s.cfg) {m t : Nat} {u v : State} (hm : m = k + t) (ht : t < 23)
    (hcfg : u.cfg = s.cfg)
    (hxchg : xchg b t (withLevels (lv m) (beforeStep m u)) = withLevels (lv m) (beforeStep m v)) :
    RowAt i lv m u v := by
  subst hm
  exact (h.row t ht (withLevels (lv (k + t)) (beforeStep (k + t) u)) hcfg).trans hxchg

/-- The first bit is driven and the clock rises. The clock edge is missing where the clock is high already (R251). -/
theorem ExchangeAt.first (h : ExchangeAt i k b s.cfg) :
    Stretch i lv k 2 s (exchanged b lv k 0 s) ⟨if s.pinr.sck then [] else [b.getLsbD 7], 0, 0⟩ := by
  have hlt := h.lt
  have drive : Stretch i lv k 1 s (((s.setData (b.getLsbD 7)).setOe true).setAcc 0) ⟨[], 0, 0⟩ :=
    .quiet (by omega) (h.rowAt lv (t := 0) rfl (by omega) rfl rfl) rfl (.inl rfl)
  exact drive.trans (.rise (by omega) (h.rowAt lv (t := 1) rfl (by omega) rfl rfl))

/-- From one bit to the next: the line is sampled and the clock falls, the next bit is driven, the clock rises. -/
theorem ExchangeAt.bit (h : ExchangeAt i k b s.cfg) {j : Nat} (hj : j < 7) :
    Stretch i lv (k + 2 + 3 * j) 3 (exchanged b lv k j s) (exchanged b lv k (j + 1) s)
      ⟨[b.getLsbD (7 - (j + 1))], 1, 0⟩ := by
  have hlt := h.lt
  have hlv : (lv (k + 2 + 3 * j)).sdi = sdiBits lv k j := by rw [sdiBits, show k + (3 * j + 2) = k + 2 + 3 * j by omega]
  have sample : Stretch i lv (k + 2 + 3 * j) 1 (exchanged b lv k j s)
      (((exchanged b lv k j s).setAcc (shiftedIn (sdiBits lv k) (j + 1))).setSck false) ⟨[], 1, 0⟩ := by
    refine .fall (by omega) (h.rowAt lv (t := 3 * j + 2) (by omega) (by omega) rfl ?_) rfl
    rw [xchg_sample, withLevels_pins, hlv]
    rfl
  have drive : Stretch i lv (k + 2 + 3 * j + 1) 1
      (((exchanged b lv k j s).setAcc (shiftedIn (sdiBits lv k) (j + 1))).setSck false)
      ((exchanged b lv k (j + 1) s).setSck false) ⟨[], 0, 0⟩ := by
    refine .quiet (by omega) (h.rowAt lv (t := 3 * (j + 1)) (by omega) (by omega) rfl ?_) rfl (.inl rfl)
    rw [xchg_data _ _ _ (by omega)]
    rfl
  have rise : Stretch i lv (k + 2 + 3 * j + 2) 1 ((exchanged b lv k (j + 1) s).setSck false)
      (exchanged b lv k (j + 1) s) ⟨[b.getLsbD (7 - (j + 1))], 0, 0⟩ :=
    .rise (by omega) (h.rowAt lv (t := 3 * (j + 1) + 1) (by omega) (by omega) rfl (xchg_rise ..))
  exact (sample.trans drive).trans rise

/-- All steps of an exchange but the last sample (R140). -/
theorem ExchangeAt.stretch (h : ExchangeAt i k b s.cfg) :
    Stretch i lv k 23 s (exchanged b lv k 7 s)
      ⟨((List.range 8).map fun j => b.getLsbD (7 - j)).drop (if s.pinr.sck then 1 else 0), 7, 0⟩ := by
  have hbits : ((List.range 8).map fun j => b.getLsbD (7 - j)).drop (if s.pinr.sck then 1 else 0) =
      (if s.pinr.sck then [] else [b.getLsbD 7]) ++ (List.range 7).map fun j => b.getLsbD (7 - (j + 1)) := by
    cases s.pinr.sck <;> rfl
  rw [hbits]
  exact (h.first lv).trans (.bits (fun j => exchanged b lv k j s) _ fun j hj => h.bit lv hj)

end

/-! ### XFER -/

/-- s after the last step of XFER d that received r, but for the bookkeeping. -/
def transferred (d r : Byte) (s : State) : State :=
  ((((s.setData (d.getLsbD 0)).setOe true).setAcc r).setSck false).setResult (r.setWidth 16)

section
variable (d r : Byte) (s : State)
@[simp] theorem transferred_cfg : (transferred d r s).cfg = s.cfg := by simp [transferred]
@[simp] theorem transferred_deb : (transferred d r s).deb = s.deb := by simp [transferred]
@[simp] theorem transferred_seq : (transferred d r s).seq = { s.seq with acc := r } := rfl
@[simp] theorem transferred_intake : (transferred d r s).intake = s.intake := by simp [transferred]
@[simp] theorem transferred_susp : (transferred d r s).susp = s.susp := by simp [transferred]
@[simp] theorem transferred_analog : (transferred d r s).analog = { s.analog with result := r.setWidth 16 } := rfl
@[simp] theorem transferred_pinr :
    (transferred d r s).pinr = { s.pinr with sck := false, data := d.getLsbD 0, oe := true } := rfl
end

/-- The last sample, which also goes to `RESULT` (R147). -/
theorem xfer_lastRow (d : Byte) (lv : Nat → Inputs) (s : State) :
    RowAt (.xfer d) lv 23 (exchanged d lv 0 7 s) (transferred d (shiftedIn (sdiBits lv 0) 8) s) := by
  have hacc : shiftedIn (sdiBits lv 0) 8 = shiftIn (shiftedIn (sdiBits lv 0) 7) (lv 23).sdi := rfl
  rw [hacc]
  exact xferStep_last d _

/-- Settles O27: 23 steps of the exchange, and the last sample. -/
theorem xferReturnsTheReceivedByte : Obligations.XferReturnsTheReceivedByte := by
  intro d s ps hstep hlen ho
  have hexch : ExchangeAt (.xfer d) 0 d s.cfg :=
    ⟨show 23 < 24 by decide, fun t ht u _ => by rw [Nat.zero_add]; exact xferStep_of_lt d u ht⟩
  obtain ⟨hrun, hedges⟩ := (hexch.stretch (levelsAt ps)).whole_idled (f := ⟨[], 1, 0⟩) hstep hlen rfl
    (xfer_lastRow d (levelsAt ps) s) (edgesOf_fall _) (.inl (by rw [transferred_seq, ho]))
  simp only [edgesOf, LineEdges.append, List.append_nil, LineEdges.mk.injEq] at hedges
  obtain ⟨hrising, hfalling, -⟩ := hedges
  refine ⟨_, shiftedIn (sdiBits (levelsAt ps) 0) 8, hrun, fun j hj => ?_, by simp, hrising, hfalling, by simp, by simp,
    by simp, by simp, by simp, by simp⟩
  rw [shiftedIn_eight _ hj, sdiBits, Nat.zero_add]

/-! ### LEDWRITE -/

/-- s in a LEDWRITE of the mapped byte x, after its step 0. -/
def ledLoaded (x : Byte) (s : State) : State := ((s.setXout x).setOe true).setLlat false

/-- s in a LEDWRITE of the mapped byte x, after the rising clock edge of bit j. -/
def ledShifted (x : Byte) (j : Nat) (s : State) : State := ((ledLoaded x s).setData (x.getLsbD (7 - j))).setSck true

section
variable (x : Byte) (j : Nat) (s : State)
@[simp] theorem ledShifted_cfg : (ledShifted x j s).cfg = s.cfg := by simp [ledShifted, ledLoaded]
@[simp] theorem ledShifted_deb : (ledShifted x j s).deb = s.deb := by simp [ledShifted, ledLoaded]
@[simp] theorem ledShifted_seq : (ledShifted x j s).seq = { s.seq with xout := x } := rfl
@[simp] theorem ledShifted_intake : (ledShifted x j s).intake = s.intake := by simp [ledShifted, ledLoaded]
@[simp] theorem ledShifted_susp : (ledShifted x j s).susp = s.susp := by simp [ledShifted, ledLoaded]
@[simp] theorem ledShifted_analog : (ledShifted x j s).analog = s.analog := by simp [ledShifted, ledLoaded]
@[simp] theorem ledShifted_pinr :
    (ledShifted x j s).pinr = { s.pinr with sck := true, data := x.getLsbD (7 - j), oe := true, llat := false } := rfl
end

section
variable {d x : Byte} {lv : Nat → Inputs} {s : State}

/-- One bit: the data line is driven, the clock falls and rises. The falling edge is missing where the clock is low
already (R251). -/
theorem stretch_ledwrite_bit {j : Nat} (hj : j < 8) (hx : s.seq.xout = x) :
    Stretch (.ledwrite d) lv (1 + 3 * j) 3 s ((s.setData (x.getLsbD (7 - j))).setSck true)
      ⟨[x.getLsbD (7 - j)], if s.pinr.sck then 1 else 0, 0⟩ := by
  subst hx
  have hlt (m : Nat) (hm : m < 26) : m + 1 < stepsOf (.ledwrite d) := show m + 1 < 27 by omega
  have drive : Stretch (.ledwrite d) lv (1 + 3 * j) 1 s (s.setData (s.seq.xout.getLsbD (7 - j))) ⟨[], 0, 0⟩ :=
    .quiet (hlt _ (by omega)) (ledwriteStep_data d j _ hj) rfl (.inl rfl)
  have fall : Stretch (.ledwrite d) lv (1 + 3 * j + 1) 1 (s.setData (s.seq.xout.getLsbD (7 - j)))
      ((s.setData (s.seq.xout.getLsbD (7 - j))).setSck false) ⟨[], if s.pinr.sck then 1 else 0, 0⟩ := by
    refine .fall (hlt _ (by omega)) ?_ rfl
    rw [show 1 + 3 * j + 1 = 2 + 3 * j by omega]
    exact ledwriteStep_fall d j _ hj
  have rise : Stretch (.ledwrite d) lv (1 + 3 * j + 2) 1 ((s.setData (s.seq.xout.getLsbD (7 - j))).setSck false)
      ((s.setData (s.seq.xout.getLsbD (7 - j))).setSck true) ⟨[s.seq.xout.getLsbD (7 - j)], 0, 0⟩ := by
    refine .rise (hlt _ (by omega)) ?_
    rw [show 1 + 3 * j + 2 = 3 + 3 * j by omega]
    exact ledwriteStep_rise d j _
  simpa [LineEdges.append] using (drive.trans fall).trans rise

/-- The step 0: the byte is mapped and loaded (R145). -/
theorem stretch_ledwrite_load :
    Stretch (.ledwrite d) lv 0 1 s (ledLoaded (writeMapped (withLevels (lv 0) s) d) s) ⟨[], 0, 0⟩ :=
  .quiet (show 0 + 1 < 27 by decide) rfl rfl (.inr rfl)

/-- The steps 1 to 24: eight bits are shifted out, the first one from any level of the clock (R145). -/
theorem stretch_ledwrite_bits :
    Stretch (.ledwrite d) lv 1 24 (ledLoaded x s) (ledShifted x 7 s)
      ⟨(List.range 8).map fun j => x.getLsbD (7 - j), if s.pinr.sck then 8 else 7, 0⟩ := by
  have first : Stretch (.ledwrite d) lv 1 3 (ledLoaded x s) (ledShifted x 0 s)
      ⟨[x.getLsbD 7], if s.pinr.sck then 1 else 0, 0⟩ := stretch_ledwrite_bit (j := 0) (by decide) rfl
  have rest : Stretch (.ledwrite d) lv 4 (3 * 7) (ledShifted x 0 s) (ledShifted x 7 s)
      ⟨(List.range 7).map fun j => x.getLsbD (7 - (j + 1)), 7, 0⟩ := by
    refine .bits (fun j => ledShifted x j s) _ fun j hj => ?_
    rw [show 4 + 3 * j = 1 + 3 * (j + 1) by omega]
    exact stretch_ledwrite_bit (s := ledShifted x j s) (by omega) rfl
  have hfalls : (if s.pinr.sck then 8 else 7) = (if s.pinr.sck then 1 else 0) + 7 := by cases s.pinr.sck <;> rfl
  rw [hfalls]
  exact first.trans rest

/-- The step 25: the latch rises (R145). -/
theorem stretch_ledwrite_latch :
    Stretch (.ledwrite d) lv 25 1 (ledShifted x 7 s) ((ledShifted x 7 s).setLlat true) ⟨[], 0, 1⟩ :=
  .single (show 25 + 1 < 27 by decide) rfl

end

/-- Settles O24: the byte is loaded, shifted out and latched. -/
theorem ledwriteShiftsOutAndLatches : Obligations.LedwriteShiftsOutAndLatches := by
  intro d s ps hstep hlen ho
  have body := (stretch_ledwrite_load (d := d) (lv := levelsAt ps) (s := s)).trans
    (stretch_ledwrite_bits.trans stretch_ledwrite_latch)
  obtain ⟨hrun, hedges⟩ := body.whole_idled (u := ledShifted (writeMapped (withLevels (levelsAt ps 0) s) d) 7 s)
    (f := ⟨[], 0, 0⟩) hstep hlen rfl rfl (edgesOf_quiet rfl (.inr rfl)) (.inl (by simpa using ho))
  simp only [edgesOf, LineEdges.append, List.append_nil, List.nil_append, Nat.zero_add, Nat.add_zero,
    LineEdges.mk.injEq] at hedges
  obtain ⟨hrising, hfalling, hlatch⟩ := hedges
  exact ⟨_, writeMapped (withLevels (levelsAt ps 0) s) d, hrun, rfl, hrising, hfalling, hlatch, by simp, by simp,
    by simp, by simp, by simp, by simp, by simp⟩

/-! ### KEYSAMPLE -/

/-- The inverses of the levels of `data_i` that a KEYSAMPLE samples (R143). -/
def keyBits (lv : Nat → Inputs) (j : Nat) : Bool := !(lv (4 + 2 * j)).dataI

/-- s in a KEYSAMPLE, after its step 2. -/
def keysCaptured (s : State) : State := ((s.setOe false).setAcc 0).setKld true

/-- s in a KEYSAMPLE that has received a in `ACC`, after a falling clock edge. -/
def keysShifted (a : Byte) (s : State) : State := ((keysCaptured s).setAcc a).setSck false

section
variable (a : Byte) (s : State)
@[simp] theorem keysShifted_cfg : (keysShifted a s).cfg = s.cfg := by simp [keysShifted, keysCaptured]
@[simp] theorem keysShifted_deb : (keysShifted a s).deb = s.deb := by simp [keysShifted, keysCaptured]
@[simp] theorem keysShifted_seq : (keysShifted a s).seq = { s.seq with acc := a } := rfl
@[simp] theorem keysShifted_intake : (keysShifted a s).intake = s.intake := by simp [keysShifted, keysCaptured]
@[simp] theorem keysShifted_susp : (keysShifted a s).susp = s.susp := by simp [keysShifted, keysCaptured]
@[simp] theorem keysShifted_analog : (keysShifted a s).analog = s.analog := by simp [keysShifted, keysCaptured]
@[simp] theorem keysShifted_pinr :
    (keysShifted a s).pinr = { s.pinr with sck := false, oe := false, kld := true } := rfl
end

section
variable {lv : Nat → Inputs} {s : State}

/-- The steps 0 to 2: the data line is an input, the keys are captured (R143). -/
theorem stretch_keysample_capture : Stretch .keysample lv 0 3 s (keysCaptured s) ⟨[], 0, 0⟩ := by
  have hlt (m : Nat) (hm : m < 19) : m + 1 < stepsOf .keysample := show m + 1 < 20 by omega
  have clear : Stretch .keysample lv 0 1 s ((s.setOe false).setAcc 0) ⟨[], 0, 0⟩ :=
    .quiet (hlt _ (by omega)) rfl rfl (.inl rfl)
  have load : Stretch .keysample lv 1 1 ((s.setOe false).setAcc 0) (((s.setOe false).setAcc 0).setKld false)
      ⟨[], 0, 0⟩ :=
    .quiet (hlt _ (by omega)) rfl rfl (.inl rfl)
  have release : Stretch .keysample lv 2 1 (((s.setOe false).setAcc 0).setKld false) (keysCaptured s) ⟨[], 0, 0⟩ :=
    .quiet (hlt _ (by omega)) rfl rfl (.inl rfl)
  exact (clear.trans load).trans release

/-- One bit: the clock rises, the line is sampled and the clock falls. The rising edge is missing where the clock is
high already (R251). -/
theorem stretch_keysample_bit {j : Nat} (hj : j < 8) :
    Stretch .keysample lv (3 + 2 * j) 2 s ((s.setAcc (shiftIn s.seq.acc (keyBits lv j))).setSck false)
      ⟨if s.pinr.sck then [] else [s.pinr.data], 1, 0⟩ := by
  have hlt (m : Nat) (hm : m < 19) : m + 1 < stepsOf .keysample := show m + 1 < 20 by omega
  have rise : Stretch .keysample lv (3 + 2 * j) 1 s (s.setSck true) ⟨if s.pinr.sck then [] else [s.pinr.data], 0, 0⟩ :=
    .rise (hlt _ (by omega)) (keysampleStep_rise j _ hj)
  have sample : Stretch .keysample lv (3 + 2 * j + 1) 1 (s.setSck true)
      ((s.setAcc (shiftIn s.seq.acc (keyBits lv j))).setSck false) ⟨[], 1, 0⟩ := by
    refine .fall (hlt _ (by omega)) ?_ rfl
    rw [show 3 + 2 * j + 1 = 4 + 2 * j by omega]
    exact keysampleStep_sample j _
  simpa [LineEdges.append] using rise.trans sample

/-- The steps 3 to 18: eight bits are shifted in, the first one from any level of the clock (R143). -/
theorem stretch_keysample_bits :
    Stretch .keysample lv 3 16 (keysCaptured s) (keysShifted (shiftedIn (keyBits lv) 8) s)
      ⟨(List.replicate 8 s.pinr.data).drop (if s.pinr.sck then 1 else 0), 8, 0⟩ := by
  have first : Stretch .keysample lv 3 2 (keysCaptured s) (keysShifted (shiftedIn (keyBits lv) 1) s)
      ⟨if s.pinr.sck then [] else [s.pinr.data], 1, 0⟩ := stretch_keysample_bit (j := 0) (by decide)
  have rest : Stretch .keysample lv 5 (2 * 7) (keysShifted (shiftedIn (keyBits lv) 1) s)
      (keysShifted (shiftedIn (keyBits lv) 8) s) ⟨(List.range 7).map fun _ => s.pinr.data, 7, 0⟩ := by
    refine .bits (fun j => keysShifted (shiftedIn (keyBits lv) (j + 1)) s) _ fun j hj => ?_
    rw [show 5 + 2 * j = 3 + 2 * (j + 1) by omega]
    exact stretch_keysample_bit (s := keysShifted (shiftedIn (keyBits lv) (j + 1)) s) (by omega)
  have hbits : (List.replicate 8 s.pinr.data).drop (if s.pinr.sck then 1 else 0) =
      (if s.pinr.sck then [] else [s.pinr.data]) ++ (List.range 7).map fun _ => s.pinr.data := by
    cases s.pinr.sck <;> rfl
  rw [hbits]
  exact first.trans rest

/-- The step 19 with nothing suspended: the accumulator is recorded, mapped where the gate is open (R143). -/
theorem keysample_lastRow (a : Byte) (hs : s.suspended = false) :
    RowAt .keysample lv 19 (keysShifted a s) (record (readMapped (withLevels (lv 19) s) a) (keysShifted a s)) := by
  have hraw : keysampleRaw (withLevels (lv 19) (beforeStep 19 (keysShifted a s))) =
      readMapped (withLevels (lv 19) s) a := if_neg (by simpa [State.suspended, beforeStep] using hs)
  rw [← hraw]
  rfl

end

/-- Settles O22: the keys are captured, shifted in and recorded. -/
theorem keysampleRecordsInvertedLevels : Obligations.KeysampleRecordsInvertedLevels := by
  intro s ps hstep hlen ho hs
  obtain ⟨hrun, hedges⟩ := (stretch_keysample_capture.trans stretch_keysample_bits).whole_idled (f := ⟨[], 0, 0⟩) hstep
    hlen rfl (keysample_lastRow (lv := levelsAt ps) _ hs) (edgesOf_quiet rfl (.inl rfl))
    (ho.imp id fun ht => ⟨ht, hs⟩)
  simp only [edgesOf, LineEdges.append, List.append_nil, List.nil_append, Nat.zero_add, Nat.add_zero,
    LineEdges.mk.injEq] at hedges
  obtain ⟨hrising, hfalling, -⟩ := hedges
  refine ⟨_, shiftedIn (keyBits (levelsAt ps)) 8, hrun, fun j hj => shiftedIn_eight _ hj, rfl, by simp, by simp,
    by simp, by simp, by simp, by simp, ?_, hfalling⟩
  rw [hrising, List.length_drop, List.length_replicate]
  cases s.pinr.sck <;> rfl

end Sys2Proof.Machine
end

section
namespace Sys2Proof.Machine

/-! SUPPORT. Legal configurations: what a legal permutation does to a byte, and that no other cause is refused; O31,
O32. -/

/-! ### Legal permutations -/

/-- What legality says of a table (R148). -/
theorem perm_legal_iff {S : List BitPos} {P : Perm} :
    Perm.legal S P = true ↔
      Perm.setOk S = true ∧ P.toList.Nodup ∧ ∀ i ∈ bitPositions, i ∈ S ∨ P[i] = i := by
  simp [Perm.legal, Perm.bijective, Perm.movesOnly, and_assoc]

theorem mem_bitPositions (i : BitPos) : i ∈ bitPositions := by revert i; decide

/-- A table lists the positions its bits come from, lowest first. -/
theorem toList_eq_map_bitPositions (P : Perm) : P.toList = bitPositions.map fun i => P[i] :=
  calc P.toList = (Vector.ofFn fun i : BitPos => P[i]).toList := by simp
    _ = (List.finRange 8).map fun i => P[i] := by rw [Vector.toList_ofFn, List.ofFn_eq_map]
    _ = bitPositions.map fun i => P[i] := rfl

/-- A legal table lists every position once (R148). -/
theorem perm_of_legal {S : List BitPos} {P : Perm} (h : Perm.legal S P = true) :
    (bitPositions.map fun i => P[i]).Perm bitPositions := by
  obtain ⟨-, hnodup, -⟩ := perm_legal_iff.1 h
  rw [toList_eq_map_bitPositions] at hnodup
  exact (List.subperm_of_subset hnodup fun i _ => mem_bitPositions i).perm_of_length_le (by simp)

/-- A count of bits by their numbers is a count over the positions. -/
theorem countP_bitPositions (f : Nat → Bool) : bitPositions.countP f = bitPositions.countP fun i : BitPos => f i := by
  show (bitPositions.map Fin.val).countP f = _
  rw [List.countP_map]
  rfl

/-- Under a legal table every position is where some bit goes (R148). -/
theorem exists_source_of_legal {S : List BitPos} {P : Perm} (h : Perm.legal S P = true) (j : BitPos) :
    ∃ i : BitPos, P[i] = j := by
  obtain ⟨i, -, hi⟩ := List.mem_map.1 ((perm_of_legal h).mem_iff.2 (mem_bitPositions j))
  exact ⟨i, hi⟩

/-- Settles O31: the table lists every position once, so that every bit of v is some bit of the permuted byte, and their
counts agree. -/
theorem legalPermutationsAreBijections : Obligations.LegalPermutationsAreBijections := by
  intro S P h
  have hbit (v : Byte) (i : BitPos) : (permute P v).getLsbD i = v.getLsbD P[i] := permute_getLsbD P v i i.isLt
  refine ⟨hbit, fun v i hi => ?_, fun v v' hv => ?_, fun v => ?_⟩
  · obtain ⟨-, -, hmoves⟩ := perm_legal_iff.1 h
    rw [hbit, (hmoves i (mem_bitPositions i)).resolve_left hi]
  · refine BitVec.eq_of_getLsbD_eq fun j hj => ?_
    obtain ⟨i, hi⟩ := exists_source_of_legal h ⟨j, hj⟩
    have hbits := congrArg (fun u => u.getLsbD i) hv
    simpa only [hbit, hi] using hbits
  · rw [countP_bitPositions, countP_bitPositions]
    calc (bitPositions.countP fun i : BitPos => (permute P v).getLsbD i)
        = (bitPositions.map fun i => P[i]).countP fun i : BitPos => v.getLsbD i := by
          simp only [hbit, List.countP_map, Function.comp_def]
      _ = bitPositions.countP fun i : BitPos => v.getLsbD i := (perm_of_legal h).countP_eq _

/-! ### Refusal -/

/-- The sequencer's part of an edge is never refused. -/
theorem sequencerEdge_not_refused (s : State) (r : Refusal) : sequencerEdge s ≠ .refused r := by
  have hprog : stepInProgress s ≠ .refused r := by
    unfold stepInProgress
    split
    · exact exec_not_refused _ s r
    · simp
  unfold sequencerEdge
  cases s.seq.owner with
  | none =>
    obtain ⟨t, ht⟩ := exists_next_of_startSelected s
    simp [ht]
  | ext => simp
  | init | tick => exact hprog
  | host =>
    obtain ⟨t, ht⟩ := exists_next_of_start .tick tickWord (suspend s)
    simp only [preempt, ht]
    split
    · simp
    · exact hprog

/-- Settles O32: the check of the configuration comes before everything else, and a legal block has no other cause of a
refusal. -/
theorem onlyIllegalConfigurationsAreRefused : Obligations.OnlyIllegalConfigurationsAreRefused := by
  refine ⟨fun s hl => ?_, fun s r hl => ?_⟩
  · unfold step clockEdge
    rw [hl]
    rfl
  · unfold step clockEdge
    rw [if_pos hl]
    split
    · have hseq := sequencerEdge_not_refused s r
      cases he : sequencerEdge s with
      | next t => simp [mapNext]
      | fault f => simp [mapNext]
      | refused r' => simpa [mapNext, he] using hseq
    · simp

end Sys2Proof.Machine
end

section
namespace Sys2Proof.Machine

/-! SUPPORT. ADCREAD: the rows of its table, its value, and the three exchanges as one whole operation; O28, O29,
O30. -/

/-! ### The value -/

/-- Settles O30: the formula reads bits [7:0] from the third response byte and bits [10:8] from the low bits of the
second, and no others. -/
theorem responsesRoundTrip : Obligations.ResponsesRoundTrip := by
  intro v r2 hr2
  refine BitVec.eq_of_getLsbD_eq fun i hi => ?_
  rw [adcValue_getLsbD _ _ _ hi]
  split_ifs with h8
  · simp [h8]
  · obtain ⟨m, rfl⟩ := Nat.exists_eq_add_of_le (Nat.le_of_not_lt h8)
    have h3 : m < 3 := by omega
    have hbit := congrArg (fun b => b.getLsbD m) hr2
    simpa [h3] using hbit

/-! ### The rows -/

theorem encode_adcread : ∀ c : Channel, encode (.adcread c) = 0x6000 ||| (c.setWidth 16 <<< 8) := by decide

section
variable (c : Channel) {k : Nat} (s : State)

/-- The steps 2 to 25 are the exchange of the first request byte (R171). -/
theorem adcreadStep_req1 (hk : k < 24) : adcreadStep c (2 + k) s = xchg 0x01 k s := by
  rcases adcreadStep_cases (2 + k) s c with
    ⟨h, -⟩ | ⟨h, -⟩ | ⟨-, -, e⟩ | ⟨h, -⟩ | ⟨h, -⟩ | ⟨h, -⟩ | ⟨h, -⟩
  case inr.inr.inl =>
    rw [e, Nat.add_sub_cancel_left]
    rfl
  all_goals omega

/-- The steps 26 to 48 are the exchange of the second request byte, but for its last sample (R171). -/
theorem adcreadStep_req2 (hk : k < 23) : adcreadStep c (26 + k) s = xchg (adcReq2 s.cfg c) k s := by
  rcases adcreadStep_cases (26 + k) s c with
    ⟨h, -⟩ | ⟨h, -⟩ | ⟨-, h, -⟩ | ⟨h, -⟩ | ⟨-, -, e⟩ | ⟨h, -⟩ | ⟨h, -⟩
  case inr.inr.inr.inr.inl => rw [e, Nat.add_sub_cancel_left]
  all_goals omega

/-- The steps 50 to 73 are the exchange of the third request byte (R171). -/
theorem adcreadStep_req3 (hk : k < 24) : adcreadStep c (50 + k) s = xchg s.cfg.adcReq3 k s := by
  rcases adcreadStep_cases (50 + k) s c with
    ⟨h, -⟩ | ⟨h, -⟩ | ⟨-, h, -⟩ | ⟨h, -⟩ | ⟨-, h, -⟩ | ⟨-, -, e⟩ | ⟨h, -⟩
  case inr.inr.inr.inr.inr.inl => rw [e, Nat.add_sub_cancel_left]
  all_goals omega

end

/-- An operation of the host or of INIT ends with the sequencer idle, and INIT counts it (R104). -/
theorem finish_of_host_or_init {s : State} (ho : s.seq.owner = .host ∨ s.seq.owner = .init) :
    finish s = (idled s).setInitCnt (if s.seq.owner = .init then s.seq.initCnt + 1 else s.seq.initCnt) := by
  rcases ho with h | h
  · rw [finish_host h, if_neg (by simp [h])]
    rfl
  · rcases finish_cases s with ⟨-, e⟩ | ⟨ht, -⟩ | ⟨hi, -⟩
    · rw [e, if_pos h]
      rfl
    · simp [h] at ht
    · exact absurd h hi

/-- After the last row of an operation of INIT the sequencer is idle, and `INIT_CNT` is one more (R104). -/
theorem exec_of_last_row_init {i : Instr} {k : Nat} {s t : State} (hk : s.seq.step.toNat = k)
    (hlast : k + 1 = stepsOf i) (ho : s.seq.owner = .init) (hrow : microBody i k s = t) :
    exec i s = .next ((idled t).setInitCnt (s.seq.initCnt + 1)) := by
  have hot : t.seq.owner = .init := by rw [← hrow, microBody_owner, ho]
  have hcnt : t.seq.initCnt = s.seq.initCnt := by rw [← hrow, microBody_initCnt]
  rw [exec_of_last_row hk hlast hrow, finish_of_host_or_init (.inr hot), if_pos hot, hcnt]

/-- Settles O28: two rows that select the converter, three exchanges, and the conversion with which the operation of
either owner returns. -/
theorem adcreadFollowsItsTable : Obligations.AdcreadFollowsItsTable := by
  intro c s
  have row {k : Nat} {t : State} (hk : k < 74) (hstep : s.seq.step.toNat = k) (hrow : adcreadStep c k s = t) :
      exec (.adcread c) s = .next (t.setStep (s.seq.step + 1)) :=
    exec_of_row hstep (show k + 1 < 75 by omega) hrow
  refine ⟨encode_adcread c, rfl, ?_, ?_, ?_, ?_, ?_, ?_, fun h => ⟨fun ho => ?_, fun ho => ?_⟩⟩
  · exact fun h => row (by omega) h rfl
  · exact fun h => row (by omega) h rfl
  · exact fun k hk h => row (by omega) h (adcreadStep_req1 c s hk)
  · exact fun k hk h => row (by omega) h (adcreadStep_req2 c s hk)
  · exact fun h => row (by omega) h rfl
  · exact fun k hk h => row (by omega) h (adcreadStep_req3 c s hk)
  · exact exec_of_last_row_host h rfl ho (if_pos ho)
  · exact exec_of_last_row_init h rfl ho (if_neg (by simp [ho]))

/-! ### The whole operation -/

/-- The whole operation of the host or of INIT, and the line edges of its trace. -/
theorem Stretch.whole_of_host_or_init {i : Instr} {ps : List Inputs} {n : Nat} {s t u : State} {e f : LineEdges}
    (h : Stretch i (levelsAt ps) 0 n s t e) (hstep : s.seq.step.toNat = 0) (hlen : ps.length = n + 1)
    (hlast : n + 1 = stepsOf i) (hrow : RowAt i (levelsAt ps) n t u) (hf : edgesOf [t.pinr, u.pinr] = f)
    (ho : u.seq.owner = .host ∨ u.seq.owner = .init) :
    runOp i ps s =
        .next (withLevels (levelsAt ps n)
          ((idled u).setInitCnt (if u.seq.owner = .init then u.seq.initCnt + 1 else u.seq.initCnt))) ∧
      edgesOf (pinTrace i ps s) = e.append f := by
  obtain ⟨hrun, hedges⟩ := h.whole hstep hlast hrow
  rw [levels_levelsAt hlen] at hrun hedges
  have hfin := finish_of_host_or_init (s := withLevels (levelsAt ps n) (beforeStep n u)) ho
  exact ⟨hrun.trans (congrArg Host.Outcome.next hfin), hf ▸ hedges⟩

/-- All steps of an exchange, the last of which may also write registers that are no pin registers (R140). -/
theorem ExchangeAt.stretch_all {i : Instr} {k : Nat} {b : Byte} {lv : Nat → Inputs} {s u : State}
    (h : ExchangeAt i k b s.cfg) (hlt : k + 24 < stepsOf i) (hrow : RowAt i lv (k + 23) (exchanged b lv k 7 s) u)
    (hpinr : u.pinr = { (exchanged b lv k 7 s).pinr with sck := false }) :
    Stretch i lv k 24 s u
      ⟨((List.range 8).map fun j => b.getLsbD (7 - j)).drop (if s.pinr.sck then 1 else 0), 8, 0⟩ := by
  simpa [LineEdges.append, exchanged] using (h.stretch lv).trans (.fall hlt hrow hpinr)

/-- s after an exchange of b that received r, but for the bookkeeping. -/
def responded (b r : Byte) (s : State) : State :=
  (((s.setData (b.getLsbD 0)).setOe true).setAcc r).setSck false

/-- s in an ADCREAD, after the steps that select the converter. -/
def adcSelected (s : State) : State := (s.setLlat false).setCs false

/-- s in an ADCREAD c, after three exchanges that received r₁, r₂ and r₃. -/
def adcResponded (c : Channel) (r₁ r₂ r₃ : Byte) (s : State) : State :=
  responded s.cfg.adcReq3 r₃ ((responded (adcReq2 s.cfg c) r₂ (responded 0x01 r₁ (adcSelected s))).setR2 r₂)

/-- s after the last step of an uncorrupted ADCREAD c of the value v, but for the bookkeeping. -/
def adcStored (c : Channel) (v : AdcValue) (s : State) : State :=
  let t := (s.setCs true).setHist (s.analog.hist.set c.toNat v c.isLt)
  t.setResult (if s.seq.owner = .host then v.setWidth 16 else s.analog.result)

section
variable (b r : Byte) (s : State)
@[simp] theorem responded_cfg : (responded b r s).cfg = s.cfg := rfl
@[simp] theorem responded_deb : (responded b r s).deb = s.deb := rfl
@[simp] theorem responded_seq : (responded b r s).seq = { s.seq with acc := r } := rfl
@[simp] theorem responded_intake : (responded b r s).intake = s.intake := rfl
@[simp] theorem responded_susp : (responded b r s).susp = s.susp := rfl
@[simp] theorem responded_analog : (responded b r s).analog = s.analog := rfl
@[simp] theorem responded_pinr :
    (responded b r s).pinr = { s.pinr with sck := false, data := b.getLsbD 0, oe := true } := rfl

@[simp] theorem adcSelected_cfg : (adcSelected s).cfg = s.cfg := rfl
@[simp] theorem adcSelected_deb : (adcSelected s).deb = s.deb := rfl
@[simp] theorem adcSelected_seq : (adcSelected s).seq = s.seq := rfl
@[simp] theorem adcSelected_intake : (adcSelected s).intake = s.intake := rfl
@[simp] theorem adcSelected_susp : (adcSelected s).susp = s.susp := rfl
@[simp] theorem adcSelected_analog : (adcSelected s).analog = s.analog := rfl
@[simp] theorem adcSelected_pinr : (adcSelected s).pinr = { s.pinr with llat := false, cs := false } := rfl
end

section
variable (c : Channel) (r₁ r₂ r₃ : Byte) (v : AdcValue) (s : State)
@[simp] theorem adcResponded_cfg : (adcResponded c r₁ r₂ r₃ s).cfg = s.cfg := by simp [adcResponded]
@[simp] theorem adcResponded_deb : (adcResponded c r₁ r₂ r₃ s).deb = s.deb := by simp [adcResponded]
@[simp] theorem adcResponded_seq : (adcResponded c r₁ r₂ r₃ s).seq = { s.seq with acc := r₃, r2 := r₂ } := by
  simp [adcResponded, State.setR2]
@[simp] theorem adcResponded_intake : (adcResponded c r₁ r₂ r₃ s).intake = s.intake := by simp [adcResponded]
@[simp] theorem adcResponded_susp : (adcResponded c r₁ r₂ r₃ s).susp = s.susp := by simp [adcResponded]
@[simp] theorem adcResponded_analog : (adcResponded c r₁ r₂ r₃ s).analog = s.analog := by simp [adcResponded]
@[simp] theorem adcResponded_pinr :
    (adcResponded c r₁ r₂ r₃ s).pinr =
      { s.pinr with sck := false, data := s.cfg.adcReq3.getLsbD 0, oe := true, llat := false, cs := false } := by
  simp [adcResponded]

@[simp] theorem adcStored_cfg : (adcStored c v s).cfg = s.cfg := rfl
@[simp] theorem adcStored_deb : (adcStored c v s).deb = s.deb := rfl
@[simp] theorem adcStored_seq : (adcStored c v s).seq = s.seq := rfl
@[simp] theorem adcStored_intake : (adcStored c v s).intake = s.intake := rfl
@[simp] theorem adcStored_susp : (adcStored c v s).susp = s.susp := rfl
@[simp] theorem adcStored_analog :
    (adcStored c v s).analog =
      { hist := s.analog.hist.set c.toNat v c.isLt,
        result := if s.seq.owner = .host then v.setWidth 16 else s.analog.result } := rfl
@[simp] theorem adcStored_pinr : (adcStored c v s).pinr = { s.pinr with cs := true } := rfl
end

/-- The last step of an uncorrupted ADCREAD (R171). -/
theorem adcFinal_of_not_corrupt {s : State} (c : Channel) (hc : s.corrupt = false) :
    adcFinal c s = adcStored c (adcValue s.seq.r2 s.seq.acc) s := by
  unfold adcFinal conversionValue adcStored
  rw [hc]
  by_cases ho : s.seq.owner = .host
  · simp [ho]
  · simp only [ho, if_false]
    rfl

section
variable {c : Channel} {lv : Nat → Inputs} {s : State}

/-- The steps 0 and 1: the latch is low and the converter selected (R171). -/
theorem stretch_adcread_select : Stretch (.adcread c) lv 0 2 s (adcSelected s) ⟨[], 0, 0⟩ := by
  have latch : Stretch (.adcread c) lv 0 1 s (s.setLlat false) ⟨[], 0, 0⟩ :=
    .quiet (show 0 + 1 < 75 by decide) rfl rfl (.inr rfl)
  have select : Stretch (.adcread c) lv 1 1 (s.setLlat false) (adcSelected s) ⟨[], 0, 0⟩ :=
    .quiet (show 1 + 1 < 75 by decide) rfl rfl (.inl rfl)
  exact latch.trans select

/-- The steps 2 to 25 (R171). -/
theorem stretch_adcread_req1 :
    Stretch (.adcread c) lv 2 24 s (responded 0x01 (shiftedIn (sdiBits lv 2) 8) s)
      ⟨((List.range 8).map fun j => (0x01 : Byte).getLsbD (7 - j)).drop (if s.pinr.sck then 1 else 0), 8, 0⟩ :=
  ExchangeAt.stretch_all ⟨show 2 + 23 < 75 by decide, fun _ ht u _ => adcreadStep_req1 c u (by omega)⟩
    (show 2 + 24 < 75 by decide) rfl rfl

/-- The steps 26 to 49, the last of which writes `R2` (R171). -/
theorem stretch_adcread_req2 {q r : Byte} (hq : adcReq2 s.cfg c = q) (hr : shiftedIn (sdiBits lv 26) 8 = r) :
    Stretch (.adcread c) lv 26 24 s ((responded q r s).setR2 r)
      ⟨((List.range 8).map fun j => q.getLsbD (7 - j)).drop (if s.pinr.sck then 1 else 0), 8, 0⟩ := by
  subst hq hr
  exact ExchangeAt.stretch_all
    ⟨show 26 + 23 < 75 by decide, fun _ ht u hu => (adcreadStep_req2 c u ht).trans (by rw [hu])⟩
    (show 26 + 24 < 75 by decide) rfl rfl

/-- The steps 50 to 73 (R171). -/
theorem stretch_adcread_req3 {b : Byte} (hb : s.cfg.adcReq3 = b) :
    Stretch (.adcread c) lv 50 24 s (responded b (shiftedIn (sdiBits lv 50) 8) s)
      ⟨((List.range 8).map fun j => b.getLsbD (7 - j)).drop (if s.pinr.sck then 1 else 0), 8, 0⟩ := by
  subst hb
  exact ExchangeAt.stretch_all
    ⟨show 50 + 23 < 75 by decide, fun _ ht u hu => (adcreadStep_req3 c u (by omega)).trans (by rw [hu])⟩
    (show 50 + 24 < 75 by decide) rfl rfl

/-- The steps 0 to 73 (R171). Only the first exchange can begin with the clock high (R251). -/
theorem stretch_adcread_requests :
    Stretch (.adcread c) lv 0 74 s
      (adcResponded c (shiftedIn (sdiBits lv 2) 8) (shiftedIn (sdiBits lv 26) 8) (shiftedIn (sdiBits lv 50) 8) s)
      ⟨((List.range 8).map (fun j => (0x01 : Byte).getLsbD (7 - j)) ++
          (List.range 8).map (fun j => (adcReq2 s.cfg c).getLsbD (7 - j)) ++
          (List.range 8).map (fun j => s.cfg.adcReq3.getLsbD (7 - j))).drop (if s.pinr.sck then 1 else 0), 24, 0⟩ := by
  have hdrop (xs ys : List Bool) :
      ((List.range 8).map (fun j => (0x01 : Byte).getLsbD (7 - j)) ++ xs ++ ys).drop (if s.pinr.sck then 1 else 0) =
        ((List.range 8).map fun j => (0x01 : Byte).getLsbD (7 - j)).drop (if s.pinr.sck then 1 else 0) ++
          (xs ++ ys) := by
    cases s.pinr.sck <;> rfl
  rw [hdrop]
  exact stretch_adcread_select.trans
    (stretch_adcread_req1.trans ((stretch_adcread_req2 (by simp) rfl).trans (stretch_adcread_req3 (by simp))))

/-- The step 74, uncorrupted (R171). -/
theorem adcread_lastRow (hc : s.corrupt = false) :
    RowAt (.adcread c) lv 74 s (adcStored c (adcValue s.seq.r2 s.seq.acc) s) :=
  adcFinal_of_not_corrupt (s := withLevels (lv 74) (beforeStep 74 s)) c hc

end

/-- Settles O29: the converter is selected, three exchanges follow one another, and the value is stored. -/
theorem adcreadConvertsTheResponses : Obligations.AdcreadConvertsTheResponses := by
  intro c s ps hstep hlen ho hc
  obtain ⟨hrun, hedges⟩ := (stretch_adcread_requests (c := c)).whole_of_host_or_init (f := ⟨[], 0, 0⟩) hstep hlen rfl
    (adcread_lastRow (by simpa [State.corrupt] using hc)) (edgesOf_quiet rfl (.inl rfl)) (by simpa using ho)
  simp only [edgesOf, LineEdges.append, List.append_nil, LineEdges.mk.injEq] at hedges
  obtain ⟨hrising, hfalling, -⟩ := hedges
  refine ⟨_, adcValue (shiftedIn (sdiBits (levelsAt ps) 26) 8) (shiftedIn (sdiBits (levelsAt ps) 50) 8), hrun,
    fun j hj => ?_, fun j h5 hj => ?_, by simp, hrising, hfalling, by simp, by simp, by simp, by simp, by simp, by simp,
    by simp, by simp, by simp, by simp⟩
  · rw [adcValue_getLsbD _ _ _ (by omega), if_pos (by omega)]
    exact shiftedIn_eight _ hj
  · rw [adcValue_getLsbD _ _ _ (by omega), if_neg (by omega), show 15 - j - 8 = 7 - j by omega]
    exact shiftedIn_eight _ hj

end Sys2Proof.Machine
end

section
namespace Sys2Proof.Machine

/-! SUPPORT. Who gets the lines: the arbiter branch by branch, the starts it leads to, the operation it cannot take them
from, and the preemption; O33, O34, O38, O39, O40, O47, O52. -/

/-! ### An idle edge -/

section
variable {s : State}

theorem arbitrate_of_extReq (hext : s.env.pins.extReq = true) : arbitrate s = .ext := if_pos hext

theorem arbitrate_of_initCnt_lt (hext : s.env.pins.extReq = false) (hcnt : s.seq.initCnt.toNat < 4) :
    arbitrate s = .init := by
  simp [arbitrate, hext, hcnt]

theorem arbitrate_of_tickPend (hext : s.env.pins.extReq = false) (hcnt : 4 ≤ s.seq.initCnt.toNat)
    (htick : s.intake.tickPend = true) : arbitrate s = .tick := by
  simp [arbitrate, hext, htick, Nat.not_lt.2 hcnt]

/-- Below EXT, INIT and the tick, the slot alone decides (R192). -/
theorem arbitrate_of_cmdFull (hext : s.env.pins.extReq = false) (hcnt : 4 ≤ s.seq.initCnt.toNat)
    (htick : s.intake.tickPend = false) : arbitrate s = if s.intake.cmdFull then .host else .nothing := by
  simp [arbitrate, hext, htick, Nat.not_lt.2 hcnt]

/-- A processed edge of a legal block, the sequencer's part being known. -/
theorem step_of_sequencerEdge {u : State} (hl : live s) (h : sequencerEdge s = .next u) :
    step s = .next (afterEdge s u) := by
  rw [step_live hl.1 hl.2, h]
  rfl

theorem sequencerEdge_of_arbitrate_ext (ho : s.seq.owner = .none) (ha : arbitrate s = .ext) :
    sequencerEdge s = .next (grantExt s) := by
  simp [sequencerEdge, startSelected, ho, ha]

theorem sequencerEdge_of_arbitrate_nothing (ho : s.seq.owner = .none) (ha : arbitrate s = .nothing) :
    sequencerEdge s = .next s := by
  simp [sequencerEdge, startSelected, ho, ha]

/-- While EXT has the lines, only its request counts (R193). -/
theorem sequencerEdge_of_ext (ho : s.seq.owner = .ext) :
    sequencerEdge s = .next (if s.env.pins.extReq then s else releaseExt s) := by
  simp [sequencerEdge, ho]

end

/-- Settles O34: the grant is what an idle edge selects; afterwards only EXT's request decides. -/
theorem extGrantHoldRelease : Obligations.ExtGrantHoldRelease := by
  refine ⟨fun s hl ho hext => ?_, fun s hl ho hext => ?_, fun s hl ho hext => ?_⟩
  · exact step_of_sequencerEdge hl (sequencerEdge_of_arbitrate_ext ho (arbitrate_of_extReq hext))
  · exact step_of_sequencerEdge hl (by simp [sequencerEdge_of_ext ho, hext])
  · exact step_of_sequencerEdge hl (by simp [sequencerEdge_of_ext ho, hext, releaseExt])

/-! ### A start -/

section
variable {s : State} {src : Owner} {w : Word} {i : Instr}

/-- A command of more than one step is in progress after its start, at its step 1 (R103, R104). -/
theorem start_of_long (hd : decode w = .ok i) (hlong : 1 < stepsOf i) :
    start src w s = .next (((microBody i 0 ((s.setOwner src).setStep 0)).setStep 1).setOp w) := by
  rw [start_of_decode hd, exec_of_row (k := 0) rfl hlong rfl]
  exact congrArg Host.Outcome.next (if_neg (Nat.ne_of_gt hlong))

/-- A one-step command of the host is over at its start, and `OP` is as before (R103, R104). -/
theorem start_of_oneStep_host (hd : decode w = .ok i) (h1 : stepsOf i = 1) :
    start .host w s = .next (idled (microBody i 0 ((s.setOwner .host).setStep 0))) := by
  rw [start_of_decode hd, exec_of_oneStep_host h1 rfl rfl]
  exact congrArg Host.Outcome.next (if_pos h1)

/-- An illegal word only sets `ERR` (R210). -/
theorem start_of_not_legalWord (h : legalWord w = false) : start src w s = .next (s.setErr true) := by
  rcases start_total src w s with ⟨-, -, hs⟩ | ⟨i, hd, -⟩
  · exact hs
  · obtain ⟨-, hlegal, -⟩ := wordsDecodeIffOneRowMatches w
    simp [hlegal.1 ⟨i, hd⟩] at h

/-- The edge that starts a command of more than one step (R103). -/
theorem step_of_start_long {s' : State} (hl : live s) (h : sequencerEdge s = start src w s') (hd : decode w = .ok i)
    (hlong : 1 < stepsOf i) :
    ∃ t, step s = .next t ∧ t.seq.owner = src ∧ t.seq.op = w ∧ t.seq.step = 1 ∧
      t.intake.tickPend = (s.env.pins.sampleTick || s'.intake.tickPend) := by
  rw [start_of_long hd hlong] at h
  refine ⟨_, step_of_sequencerEdge hl h, ?_, ?_, ?_, ?_⟩ <;> simp [afterEdge_tickPend]

end

/-- Settles O33: each condition names the branch of the arbiter, and the branch says what is started; that the slot is
free after a start of the host's command is the intake's rule. -/
theorem idleEdgeStartsHighestPriority : Obligations.IdleEdgeStartsHighestPriority := by
  intro s hl ho
  obtain ⟨grant, -⟩ := extGrantHoldRelease
  refine ⟨grant s hl ho, fun hext hcnt => ?_, fun hext hcnt htick => ?_, fun i hext hcnt htick hfull hd => ?_,
    fun hext hcnt htick hfull hill => ?_, fun hext hcnt htick hfull => ?_⟩
  · have ha := arbitrate_of_initCnt_lt hext hcnt
    obtain ⟨t, hstep, howner, hop, hone, -⟩ := step_of_start_long hl (sequencerEdge_of_arbitrate_init ho ha)
      (decode_initWord _ hcnt) (show 1 < 75 by decide)
    exact ⟨t, hstep, howner, hop, hone⟩
  · have ha := arbitrate_of_tickPend hext hcnt htick
    obtain ⟨t, hstep, howner, hop, hone, hpend⟩ := step_of_start_long hl (sequencerEdge_of_arbitrate_tick ho ha)
      decode_tickWord (show 1 < 20 by decide)
    exact ⟨t, hstep, howner, hop, hone, by simpa using hpend⟩
  · have ha : arbitrate s = .host := by simp [arbitrate_of_cmdFull hext hcnt htick, hfull]
    have hseq := sequencerEdge_of_arbitrate_host ho ha
    have hfree {t : State} (hstep : step s = .next t) : t.intake.cmdFull = false := by
      obtain ⟨-, -, -, -, hslot⟩ := commandIntakeNeedsFreeSlot.1 s t hl hstep
      obtain ⟨-, hfree, -⟩ := hslot ⟨ho, ha⟩
      exact hfree
    rcases Nat.eq_or_lt_of_le (stepsOf_pos i) with h1 | hlong
    · rw [start_of_oneStep_host hd h1.symm] at hseq
      have hstep := step_of_sequencerEdge hl hseq
      exact ⟨_, hstep, hfree hstep, fun _ => by simp, fun hlong => by omega⟩
    · obtain ⟨t, hstep, howner, hop, hone, -⟩ := step_of_start_long hl hseq hd hlong
      exact ⟨t, hstep, hfree hstep, fun h1 => by omega, fun _ => ⟨howner, hone, hop⟩⟩
  · have ha : arbitrate s = .host := by simp [arbitrate_of_cmdFull hext hcnt htick, hfull]
    exact step_of_sequencerEdge hl ((sequencerEdge_of_arbitrate_host ho ha).trans (start_of_not_legalWord hill))
  · have ha : arbitrate s = .nothing := by simp [arbitrate_of_cmdFull hext hcnt htick, hfull]
    exact step_of_sequencerEdge hl (sequencerEdge_of_arbitrate_nothing ho ha)

/-! ### An operation in progress -/

/-- Settles O38: no preemption applies, so the edge is the operation's micro-step, which writes neither the owner nor
the intake, and before the last one only `STEP` moves on. -/
theorem operationsRunToCompletion : Obligations.OperationsRunToCompletion := by
  intro s t i hinv hl hb hd hkept hstep hlt
  have hp : preemptCondition s = false := by
    rw [← Bool.not_eq_true, preemptCondition_iff]
    rintro ⟨hng, ho, hop, -⟩
    simp [hng, ho, hop] at hkept
  have hgnt : s.intake.extGnt = false := by
    obtain ⟨-, -, hseq⟩ := inv_iff.1 hinv
    obtain ⟨_, -, hrun⟩ := AboutToRun.of_seqInv hb hseq
    exact hrun.notGranted
  obtain ⟨u, hu, -, hintake, -, hnext, -⟩ := microStepThenBookkeeping i s (by omega)
  obtain ⟨howner, hop, hone, -⟩ := hnext hlt
  have hseq : sequencerEdge s = .next u := by
    rw [sequencerEdge_of_busy hb hp, stepInProgress, hd]
    exact hu
  obtain rfl : afterEdge s u = t := by simpa [step_of_sequencerEdge hl hseq] using hstep
  simp [howner, hop, hone, hintake, hgnt]

/-! ### Preemption -/

/-- R195's condition on the registers: in a block with `ADC_GUARDED = false` the preemption registers exist (R27). -/
theorem preemptCondition_iff_registers (s : State) :
    preemptCondition s = true ↔
      s.cfg.adcGuarded = false ∧ s.seq.owner = .host ∧ opcOf s.seq.op = 0x6 ∧ s.susp.valid = false ∧
        s.intake.tickPend = true := by
  rw [preemptCondition_iff]
  exact and_congr_right fun hng => by simp [State.suspended, hng]

/-- Settles O39: the edge suspends the ADCREAD and starts the tick's KEYSAMPLE. -/
theorem preemptionSavesTheAdcread : Obligations.PreemptionSavesTheAdcread := by
  refine ⟨fun s hl hng ho hop hv htick => ?_, preemptCondition_iff_registers⟩
  have hp := (preemptCondition_iff_registers s).2 ⟨hng, ho, hop, hv, htick⟩
  have hseq := (sequencerEdge_of_preempt hp).trans (start_of_long decode_tickWord (show 1 < 20 by decide))
  refine ⟨_, step_of_sequencerEdge hl hseq, ?_, ?_, ?_, ?_, ?_, ?_⟩
  · rw [afterEdge_susp, ← ho]
    rfl
  · exact afterEdge_seq ..
  · rw [afterEdge_tickPend]
    exact Bool.or_false _
  · exact afterEdge_pinr ..
  · exact afterEdge_deb ..
  · exact afterEdge_analog ..

/-- The preempting KEYSAMPLE ends with the ADCREAD resumed (R196). -/
theorem exec_keysample_last_of_suspended {s : State} (hs : s.suspended = true) (ho : s.seq.owner = .tick)
    (hk : s.seq.step.toNat = 19) :
    exec .keysample s = .next (resume (idled (record (Config.draw8 s.env.edges) s))) := by
  have hraw : keysampleRaw s = Config.draw8 s.env.edges := if_pos hs
  rw [exec_of_last_row (i := .keysample) hk rfl rfl]
  show Host.Outcome.next (finish (record (keysampleRaw s) s)) = _
  rw [hraw]
  rcases finish_cases (record (Config.draw8 s.env.edges) s) with ⟨hi, -⟩ | ⟨-, -, e⟩ | ⟨-, hn, -⟩
  · simp [ho] at hi
  · rw [e]
    rfl
  · exact absurd ⟨ho, hs⟩ hn

/-- Settles O40: what the two last steps write is read off them, the KEYSAMPLE's return being the resumption. -/
theorem preemptedAdcreadResumesCorrupted : Obligations.PreemptedAdcreadResumesCorrupted := by
  refine ⟨fun s hs ho hk => ?_, fun s c hc ho hk => ?_⟩
  · exact ⟨_, exec_keysample_last_of_suspended hs ho hk, rfl, rfl, rfl, rfl, rfl, rfl, rfl⟩
  · have hvalue : conversionValue s = Config.draw11 s.env.edges := if_pos hc
    obtain ⟨hcfg, hdeb, hseq, hintake, -, hsusp, hhist, hresult, hpinr⟩ := adcFinal_fields s c
    rw [hvalue] at hhist hresult
    refine ⟨_, exec_of_last_row_host (i := .adcread c) hk rfl ho rfl, ?_, ?_, hpinr, ?_, hdeb, hintake, hcfg⟩
    · show (adcFinal c s).analog = _
      rw [← hhist, ← hresult.trans (if_pos ho)]
    · exact hsusp.trans (by rw [hc]; rfl)
    · show ({ (adcFinal c s).seq with owner := .none, step := 0 } : Sequencer) = _
      rw [hseq]

/-! ### The pin registers -/

/-- The one-step commands write no pin register (R191). -/
theorem microBody_pinr_of_oneStep {i : Instr} (k : Nat) (s : State) (h1 : stepsOf i = 1) :
    (microBody i k s).pinr = s.pinr := by
  cases i with
  | nop | record _ | dbread | updedge => rfl
  | keysample | ledwrite _ | adcread _ | xfer _ => simp [stepsOf] at h1

/-- A start writes the pin registers only with a command of more than one step, which is then in progress (R103,
R191). -/
theorem start_pinr {src : Owner} {w : Word} {s t : State} (hsrc : src.busy = true) (h : start src w s = .next t) :
    t.pinr = s.pinr ∨ ∃ i, stepsOf i ≠ 1 ∧ t.seq.owner.busy = true ∧ decode t.seq.op = .ok i := by
  rcases start_next h with ⟨-, rfl⟩ | ⟨i, hd, rfl⟩
  · exact .inl rfl
  · by_cases h1 : stepsOf i = 1
    · exact .inl (by simp [microBody_pinr_of_oneStep _ _ h1])
    · have hlong : 1 < stepsOf i := lt_of_le_of_ne (stepsOf_pos i) (Ne.symm h1)
      rw [start_of_long hd hlong] at h
      injection h with h
      rw [← h]
      exact .inr ⟨i, h1, by simpa using hsrc, hd⟩

/-- An idle edge writes the pin registers only where it starts such a command (R103, R191). -/
theorem startSelected_pinr {s t : State} (h : startSelected s = .next t) :
    t.pinr = s.pinr ∨ ∃ i, stepsOf i ≠ 1 ∧ t.seq.owner.busy = true ∧ decode t.seq.op = .ok i := by
  rcases startSelected_next h with ⟨-, rfl⟩ | ⟨-, rfl⟩ | ⟨-, hs⟩ | ⟨-, hs⟩ | ⟨-, hs⟩
  · exact .inl rfl
  · exact .inl rfl
  · exact start_pinr rfl hs
  · exact start_pinr (s := s.setTickPend false) rfl hs
  · exact start_pinr (s := s.setCmdFull false) rfl hs

/-- Settles O47: EXT writes no pin register and an idle edge only by a start; else an operation is in progress, and a
one-step command writes none. -/
theorem pinRegistersChangeOnlyInTransactions : Obligations.PinRegistersChangeOnlyInTransactions := by
  intro s t hinv hl h hne
  obtain ⟨u, hu, rfl⟩ := step_next_of_live hl h
  rw [afterEdge_pinr] at hne
  rw [afterEdge_seq]
  rcases sequencerEdge_next hu with ⟨ho, hs⟩ | ⟨-, rfl⟩ | ⟨hp, -⟩ | ⟨hb, -, hs⟩
  · obtain ⟨i, h1, hb, hd⟩ := (startSelected_pinr hs).resolve_left hne
    exact ⟨i, h1, .inr ⟨ho, hb, hd⟩⟩
  · split at hne <;> exact absurd rfl hne
  · obtain ⟨-, ho, hop, -⟩ := (preemptCondition_iff s).1 hp
    have hb : s.seq.owner.busy = true := by rw [ho]; rfl
    obtain ⟨-, -, hseq⟩ := inv_iff.1 hinv
    obtain ⟨i, -, hrun⟩ := AboutToRun.of_seqInv hb hseq
    obtain ⟨c, rfl⟩ := opcOf_encode_eq_six.1 (encode_of_decode hrun.decoded ▸ hop)
    exact ⟨.adcread c, show (75 : Nat) ≠ 1 by decide, .inl ⟨hb, hrun.decoded⟩⟩
  · obtain ⟨i, hd, -, rfl⟩ := stepInProgress_next hs
    rw [advance_pinr] at hne
    exact ⟨i, fun h1 => hne (microBody_pinr_of_oneStep _ _ h1), .inl ⟨hb, hd⟩⟩

/-! ### The lines -/

/-- Settles O52: the ports are the multiplexer on the visible registers, and reset hides no input of EXT. -/
theorem lineMultiplexer : Obligations.LineMultiplexer := by
  intro s
  have hpins : (visible s).env = s.env := visible_env s
  refine ⟨visible_of_rstN, ?_, ?_, rfl, rfl, rfl, rfl, rfl⟩
  · rw [← hpins]
    rfl
  · rw [← hpins]
    rfl

end Sys2Proof.Machine
end

section
namespace Sys2Proof.Machine

/-! SUPPORT. IllegalCommand, and what no edge does: stop, or read `rotate_i` at other steps than two; O37, O44, O48. -/

/-! ### IllegalCommand -/

/-- An edge that disposes of an illegal word of the host (R210). -/
abbrev StartsIllegal (s : State) : Prop := StartsHost s ∧ legalWord s.intake.cmdSlot = false

/-- A word that decodes is legal (R72). -/
theorem legalWord_of_decode {w : Word} {i : Instr} (hd : decode w = .ok i) : legalWord w = true := by
  obtain ⟨-, hlegal, -⟩ := wordsDecodeIffOneRowMatches w
  exact hlegal.1 ⟨i, hd⟩

theorem legalWord_tickWord : legalWord tickWord = true := legalWord_of_decode decode_tickWord

theorem legalWord_initWord {cnt : BitVec 3} (hcnt : cnt.toNat < 4) : legalWord (initWord cnt) = true :=
  legalWord_of_decode (decode_initWord cnt hcnt)

/-- A start sets `ERR` exactly for an illegal word (R103, R210). -/
theorem start_err {src : Owner} {w : Word} {s t : State} (h : start src w s = .next t) :
    t.intake.err = true ↔ s.intake.err = true ∨ legalWord w = false := by
  rcases start_next h with ⟨⟨r, hd⟩, rfl⟩ | ⟨i, hd, rfl⟩
  · simp [raiseIllegal, legalWord_of_decode_error hd]
  · simp [legalWord_of_decode hd]

/-- At an idle edge only the host's word can be illegal: INIT and the tick start commands (R74, R210). -/
theorem startSelected_err {s t : State} (h : startSelected s = .next t) :
    t.intake.err = true ↔ s.intake.err = true ∨ (arbitrate s = .host ∧ legalWord s.intake.cmdSlot = false) := by
  rcases startSelected_next h with ⟨ha, rfl⟩ | ⟨ha, rfl⟩ | ⟨ha, hs⟩ | ⟨ha, hs⟩ | ⟨ha, hs⟩
  · simp [ha]
  · simp [ha, grantExt]
  · simp [ha, start_err hs, legalWord_initWord (initCnt_lt_of_arbitrate_init ha)]
  · simp [ha, start_err hs, legalWord_tickWord]
  · simp [ha, start_err hs]

/-- The sequencer sets `ERR` where it disposes of an illegal word, and never clears it (R210). -/
theorem sequencerEdge_err {s t : State} (h : sequencerEdge s = .next t) :
    t.intake.err = true ↔ s.intake.err = true ∨ StartsIllegal s := by
  rcases sequencerEdge_next h with ⟨ho, hs⟩ | ⟨ho, rfl⟩ | ⟨hp, hs⟩ | ⟨hb, -, hs⟩
  · simp [startSelected_err hs, StartsIllegal, StartsHost, ho]
  · split <;> simp [ho, releaseExt]
  · obtain ⟨-, ho, -⟩ := (preemptCondition_iff s).1 hp
    simp [ho, start_err hs, suspend, legalWord_tickWord]
  · have ho : s.seq.owner ≠ .none := by
      intro ho
      simp [ho, Owner.busy] at hb
    obtain ⟨i, -, -, rfl⟩ := stepInProgress_next hs
    simp [ho]

/-- Settles O37: the start of an illegal word is `raiseIllegal` on the freed slot, `ERR` after any other part of the
sequencer is as before, and the reset state has `ERR = 0`. -/
theorem illegalCommandSetsStickyErr : Obligations.IllegalCommandSetsStickyErr := by
  refine ⟨fun s hl ho ha hill => ?_, fun s t hl h => ?_, fun s t _ hr h => ?_⟩
  · exact step_of_sequencerEdge hl ((sequencerEdge_of_arbitrate_host ho ha).trans (start_of_not_legalWord hill))
  · obtain ⟨u, hu, rfl⟩ := step_next_of_live hl h
    have herr := sequencerEdge_err hu
    rw [afterEdge_err]
    exact ⟨fun he => herr.2 (.inl he), fun he => by simpa [and_assoc] using herr.1 he⟩
  · rcases (step_next h).2 with ⟨-, rfl⟩ | ⟨hlive, -⟩
    · rfl
    · simp [hr] at hlive

/-! ### No stop -/

/-- Settles O44: under the invariant the operation in progress is a command and has the step that `STEP` names, and no
other part of an edge can stop. -/
theorem noStopFromTheInvariant : Obligations.NoStopFromTheInvariant := fun _ => exists_next_of_inv

/-! ### The level of `rotate_i` -/

/-- From its step 1 on an operation reads `rotate_i` only at KEYSAMPLE's step 19 (R142). -/
theorem keysample_last_of_readsRotate {s : State} {i : Instr} (hinv : Inv s) (hb : s.seq.owner.busy = true)
    (hd : decode s.seq.op = .ok i) (h : readsRotate i s.seq.step.toNat) :
    s.seq.op = tickWord ∧ s.seq.step = 19 := by
  rcases h with ⟨hi, hk⟩ | ⟨-, hk⟩
  · exact ⟨(eq_tickWord_iff hd).2 hi, BitVec.eq_of_toNat_eq hk⟩
  · obtain ⟨-, -, hseq⟩ := inv_iff.1 hinv
    obtain ⟨_, h1, -⟩ := AboutToRun.of_seqInv hb hseq
    omega

/-- Of the commands only LEDWRITE reads `rotate_i` at its start (R142, R145). -/
theorem opcOf_eq_five_of_readsRotate_zero {w : Word} {i : Instr} (hd : decode w = .ok i) (h : readsRotate i 0) :
    opcOf w = 0x5 := by
  rcases h with ⟨-, hk⟩ | ⟨hop, -⟩
  · cases hk
  · rwa [encode_of_decode hd] at hop

/-- Settles O48: a step that reads `rotate_i` is, in progress, KEYSAMPLE's step 19, and at a start a LEDWRITE's step 0;
the block's own starts read it nowhere. -/
theorem rotateMattersAtTwoStepsOnly : Obligations.RotateMattersAtTwoStepsOnly := by
  intro s level hinv _ hlast hstart
  refine step_withLevels (sequencerEdge_withLevels rfl rfl rfl (fun hb i hd hr => ?_) fun ho ha i hd hr => ?_)
    rfl rfl rfl rfl
  · exact absurd ⟨hb, keysample_last_of_readsRotate hinv hb hd hr⟩ hlast
  · exact absurd ⟨ho, ha, opcOf_eq_five_of_readsRotate_zero hd hr⟩ hstart

end Sys2Proof.Machine
end

section
namespace Sys2Proof.Machine

/-! SUPPORT. The reset edge; what an edge does to the environment; who writes the debounce registers, `RESULT` and the
history; O8, O20, O41, O42, O46. -/

/-! ### Reset -/

/-- Settles O42: the reset values meet each clause of the invariant. -/
theorem resetMeetsTheInvariant : Obligations.ResetMeetsTheInvariant := fun _ => inv_resetWith

/-- An edge in a cycle with `rst_n = 0` (R240). -/
theorem step_of_reset {s : State} (hl : s.cfg.legal = true) (hr : s.env.pins.rstN = false) :
    step s = .next (resetEdge s) := by
  simp [step, clockEdge, hl, hr]

/-- The multiplexer at reset: the pin registers' reset values, as EXT is not granted (R190, R240). -/
theorem muxLines_resetWith (c : Config) (e : Env) :
    muxLines (.resetWith c e) =
      { sck := false, data := false, dataOe := true, keyLdN := true, ledLatch := false, adcCsN := true,
        extGnt := false } := rfl

/-- Settles O41: a cycle in reset shows the reset state, and its edge leaves the reset state. -/
theorem resetEdgeGivesTheResetState : Obligations.ResetEdgeGivesTheResetState := by
  intro s hl hr
  have hvisible := visible_of_reset hr
  refine ⟨?_, ?_, ?_, resetEdge s, step_of_reset hl hr, rfl, rfl, rfl, rfl, rfl, rfl, rfl⟩
  · show statusWord (visible s) = 0x0020
    rw [hvisible, statusWord_resetWith]
  · show (s.env.pins.rstN && !s.intake.cmdFull) = false
    rw [hr, Bool.false_and]
  · show muxLines (visible s) = _
    rw [hvisible, muxLines_resetWith]

/-! ### The environment -/

@[simp] theorem microBody_env (i : Instr) (k : Nat) (s : State) : (microBody i k s).env = s.env := by
  obtain ⟨-, -, h, -⟩ := microBody_frame i k s
  exact h

theorem start_env {src : Owner} {w : Word} {s t : State} (h : start src w s = .next t) : t.env = s.env := by
  rcases start_next h with ⟨-, rfl⟩ | ⟨i, -, rfl⟩ <;> simp [raiseIllegal]

/-- The sequencer does not touch the environment. -/
theorem sequencerEdge_env {s t : State} (h : sequencerEdge s = .next t) : t.env = s.env := by
  rcases sequencerEdge_next h with ⟨-, hs⟩ | ⟨-, rfl⟩ | ⟨-, hs⟩ | ⟨-, -, hs⟩
  · rcases startSelected_next hs with ⟨-, rfl⟩ | ⟨-, rfl⟩ | ⟨-, hs⟩ | ⟨-, hs⟩ | ⟨-, hs⟩
    · rfl
    · rfl
    · exact start_env hs
    · exact (start_env hs :)
    · exact (start_env hs :)
  · split <;> rfl
  · exact (start_env hs :)
  · obtain ⟨i, -, -, rfl⟩ := stepInProgress_next hs
    simp

/-- Every edge, also one in reset, goes on to the environment's next cycle. -/
theorem step_env {s t : State} (h : step s = .next t) : t.env = nextEnv s.env := by
  rcases (step_next h).2 with ⟨-, rfl⟩ | ⟨-, u, hu, rfl⟩
  · rfl
  · rw [afterEdge_env, sequencerEdge_env hu]

/-- Settles O8: no part of an edge writes the parameters, and only its last event moves the environment on. -/
theorem edgeKeepsParametersAndTakesNextLevels : Obligations.EdgeKeepsParametersAndTakesNextLevels := by
  intro s t h
  have henv := step_env h
  refine ⟨step_cfg h, by rw [henv, nextEnv_edges], fun p ps hscript => ?_⟩
  rw [henv, nextEnv_cons hscript]
  exact ⟨rfl, rfl⟩

/-! ### The writers of the debounce registers -/

theorem eventsOfWord_encode (i : Instr) : eventsOfWord (encode i) = startedEvents i := by
  rw [eventsOfWord, decode_encode]

/-- A KEYSAMPLE's step 19 (R143). -/
abbrev RecordsKeys (s : State) : Prop := s.seq.owner.busy = true ∧ s.seq.op = tickWord ∧ s.seq.step = 19

theorem debEventsOf_of_recordsKeys {s : State} (h : RecordsKeys s) : debEventsOf s = [.sample (keysampleRaw s)] := by
  obtain ⟨hb, hop, hk⟩ := h
  exact if_pos (by simp [hb, hop, hk])

/-- RECORD and UPDEDGE are the only commands whose start writes the debounce registers (R122, R124). -/
theorem writer_of_eventsOfWord_ne_nil {w : Word} (h : eventsOfWord w ≠ []) :
    w = 0x4000 ∨ ∃ d, w = encode (.record d) := by
  cases hd : decode w with
  | error r => simp [eventsOfWord, hd] at h
  | ok i =>
    have hw := encode_of_decode hd
    rw [← hw, eventsOfWord_encode] at h
    cases i with
    | record d => exact .inr ⟨d, hw.symm⟩
    | updedge => exact .inl hw.symm
    | nop | keysample | dbread | ledwrite _ | adcread _ | xfer _ => exact absurd rfl h

/-- An edge with an event for the debounce registers is one of R253's three writers. -/
theorem writer_of_debEventsOf_ne_nil {s : State} (h : debEventsOf s ≠ []) :
    RecordsKeys s ∨ (s.seq.owner = .none ∧ arbitrate s = .host ∧
      (s.intake.cmdSlot = 0x4000 ∨ ∃ d, s.intake.cmdSlot = encode (.record d))) := by
  by_cases hkeys : RecordsKeys s
  · exact .inl hkeys
  · by_cases hstart : StartsHost s
    · rw [debEventsOf_of_startsHost hstart] at h
      exact .inr ⟨hstart.1, hstart.2, writer_of_eventsOfWord_ne_nil h⟩
    · refine absurd ?_ h
      unfold debEventsOf
      rw [if_neg (by simpa [RecordsKeys, and_assoc] using hkeys), if_neg (by simpa [StartsHost] using hstart)]

/-- A processed edge does to the debounce registers what its events say (R253). -/
theorem step_deb {s t : State} (hinv : Inv s) (hl : live s) (h : step s = .next t) :
    t.deb = applyEvents s.cfg.nWin s.deb (debEventsOf s) := by
  obtain ⟨-, -, hseq⟩ := inv_iff.1 hinv
  obtain ⟨u, hu, rfl⟩ := step_next_of_live hl h
  rw [afterEdge_deb]
  exact sequencerEdge_deb hseq hu

/-- Settles O20: each writer's edge has its one event, and an edge that changes the registers has an event. -/
theorem debounceRegistersHaveThreeWriters : Obligations.DebounceRegistersHaveThreeWriters := by
  intro s t hinv hl h
  have hdeb := step_deb hinv hl h
  refine ⟨fun hkeys => ?_, fun d ⟨ho, ha, hslot⟩ => ?_, fun ⟨ho, ha, hslot⟩ => ?_, fun hne => ?_⟩
  · rw [hdeb, debEventsOf_of_recordsKeys hkeys]
    rfl
  · rw [hdeb, debEventsOf_of_startsHost ⟨ho, ha⟩, hslot, eventsOfWord_encode]
    rfl
  · have hup : s.intake.cmdSlot = encode .updedge := hslot
    rw [hdeb, debEventsOf_of_startsHost ⟨ho, ha⟩, hup, eventsOfWord_encode]
    rfl
  · refine writer_of_debEventsOf_ne_nil fun hnil => hne ?_
    rw [hdeb, hnil, applyEvents_nil]

/-! ### The writers of `RESULT` and of the history -/

/-- What a micro-step can do to `RESULT` and to the history (R123, R147, R173, R174). -/
theorem microBody_analog (i : Instr) (k : Nat) (s : State) :
    (microBody i k s).analog = s.analog ∨
    (((i = .dbread) ∨ ∃ d, i = .xfer d ∧ k = 23) ∧ (microBody i k s).analog.hist = s.analog.hist) ∨
    (∃ c v, i = .adcread c ∧ 74 ≤ k ∧ (microBody i k s).analog.hist = s.analog.hist.set c.toNat v c.isLt ∧
      ((microBody i k s).analog.result = s.analog.result ∨ s.seq.owner = .host)) := by
  by_cases hk : k + 1 < stepsOf i
  · exact .inl (microBody_sameDatapath s hk).2
  · cases i with
    | nop | record _ | updedge => exact .inl rfl
    | dbread => exact .inr (.inl ⟨.inl rfl, rfl⟩)
    | keysample =>
      refine .inl ?_
      simp only [microBody]
      rcases keysampleStep_cases k s with
        ⟨-, e⟩ | ⟨-, e⟩ | ⟨-, e⟩ | ⟨-, e⟩ | ⟨-, -, -, e⟩ | ⟨-, -, -, e⟩ <;> rw [e] <;> rfl
    | ledwrite d =>
      refine .inl ?_
      simp only [microBody]
      rcases ledwriteStep_cases k s d with
        ⟨-, e⟩ | ⟨-, e⟩ | ⟨-, e⟩ | ⟨-, -, e⟩ | ⟨-, -, e⟩ | ⟨-, -, e⟩ <;> rw [e] <;> rfl
    | xfer d =>
      simp only [microBody]
      rcases xferStep_cases k s d with ⟨h23, e⟩ | ⟨-, e⟩
      · exact .inr (.inl ⟨.inr ⟨d, rfl, h23⟩, by simp [e]⟩)
      · exact .inl (by simp [e])
    | adcread c =>
      obtain ⟨h74, e⟩ : 74 ≤ k ∧ adcreadStep c k s = adcFinal c s := by
        simp only [stepsOf] at hk
        rcases adcreadStep_cases k s c with ⟨h, -⟩ | ⟨h, -⟩ | ⟨-, h, -⟩ | ⟨h, -⟩ | ⟨-, h, -⟩ | ⟨-, h, -⟩ | h
        case inr.inr.inr.inr.inr.inr => exact h
        all_goals omega
      obtain ⟨-, -, -, -, -, -, hhist, hresult, -⟩ := adcFinal_fields s c
      refine .inr (.inr ⟨c, conversionValue s, rfl, h74, ?_, ?_⟩) <;> simp only [microBody, e]
      · exact hhist
      · by_cases ho : s.seq.owner = .host
        · exact .inr ho
        · exact .inl (by rw [hresult, if_neg ho])

/-- Whose operation it is: INIT runs ADCREADs, the tick KEYSAMPLEs (R74, R192). -/
theorem AboutToRun.owner_cases {w : Word} {i : Instr} {s : State} (h : AboutToRun w i s) :
    s.seq.owner = .host ∨ (s.seq.owner = .tick ∧ i = .keysample) ∨ (s.seq.owner = .init ∧ ∃ c, i = .adcread c) := by
  have hown := h.owner
  have hd := h.decoded
  unfold OwnerRuns at hown
  cases ho : s.seq.owner with
  | none | ext => simp [ho] at hown
  | host => exact .inl rfl
  | tick =>
    simp only [ho] at hown
    exact .inr (.inl ⟨rfl, (eq_tickWord_iff hd).1 hown.1⟩)
  | init =>
    simp only [ho] at hown
    obtain ⟨rfl, hcnt⟩ := hown
    rw [decode_initWord _ hcnt] at hd
    injection hd with hd
    exact .inr (.inr ⟨rfl, _, hd.symm⟩)

/-- From s to t a host XFER does its last step, which does not touch the history (R147). -/
structure EndsTransfer (s t : State) : Prop where
  owner : s.seq.owner = .host
  opc : opcOf s.seq.op = 0x7
  step : s.seq.step = 23
  hist : t.analog.hist = s.analog.hist

/-- From s to t an ADCREAD does its last step, which writes the history of its channel (R173, R174). -/
structure EndsConversion (s t : State) : Prop where
  owner : s.seq.owner = .host ∨ s.seq.owner = .init
  opc : opcOf s.seq.op = 0x6
  step : s.seq.step = 74
  hist : ∃ v, t.analog.hist = s.analog.hist.set (chOf s.seq.op).toNat v (chOf s.seq.op).isLt
  result : t.analog.result = s.analog.result ∨ s.seq.owner = .host

/-- An edge of an operation in progress writes `RESULT` and the history only at the last step of a host XFER and of an
ADCREAD: DBREAD has no step after its first. -/
theorem stepInProgress_analog {s t : State} (hinv : SeqInv s) (hb : s.seq.owner.busy = true)
    (h : stepInProgress s = .next t) :
    t.analog = s.analog ∨ EndsTransfer s t ∨ EndsConversion s t := by
  obtain ⟨i, h1, hrun⟩ := AboutToRun.of_seqInv hb hinv
  obtain ⟨j, hd, hlt, rfl⟩ := stepInProgress_next h
  obtain rfl : j = i := by simpa [hd] using hrun.decoded
  have howner := hrun.owner_cases
  have hop := encode_of_decode hd
  rcases microBody_analog j s.seq.step.toNat s with e | ⟨rfl | ⟨d, rfl, h23⟩, e⟩ | ⟨c, v, rfl, h74, ehist, eresult⟩
  · exact .inl (by simpa using e)
  · simp only [stepsOf] at hlt
    omega
  · have ho : s.seq.owner = .host := by simpa using howner
    exact .inr (.inl ⟨ho, by simp [← hop, encode], BitVec.eq_of_toNat_eq h23, by simpa using e⟩)
  · have ho : s.seq.owner = .host ∨ s.seq.owner = .init := by simpa using howner
    have hk : s.seq.step.toNat = 74 := by
      simp only [stepsOf] at hlt
      omega
    refine .inr (.inr ⟨ho, by simp [← hop, encode], BitVec.eq_of_toNat_eq hk, ⟨v, ?_⟩, by simpa using eresult⟩)
    simpa [← hop, encode] using ehist

/-- The start of a command writes `RESULT` only with a DBREAD, and the history never. -/
theorem start_analog {src : Owner} {w : Word} {s t : State} (h : start src w s = .next t) :
    t.analog = s.analog ∨ (w = 0x3000 ∧ t.analog.hist = s.analog.hist) := by
  rcases start_next h with ⟨-, rfl⟩ | ⟨i, hd, rfl⟩
  · exact .inl rfl
  · rw [keepWord_analog, advance_analog]
    rcases microBody_analog i 0 ((s.setOwner src).setStep 0) with e | ⟨rfl | ⟨-, -, h0⟩, e⟩ | ⟨-, -, -, h0, -⟩
    · exact .inl e
    · exact .inr ⟨(encode_of_decode hd).symm, e⟩
    · cases h0
    · cases h0

/-- What a processed edge can do to `RESULT` and to the history (R253). -/
theorem sequencerEdge_analog {s t : State} (hinv : SeqInv s) (h : sequencerEdge s = .next t) :
    t.analog = s.analog ∨
    (StartsHost s ∧ s.intake.cmdSlot = 0x3000 ∧ t.analog.hist = s.analog.hist) ∨
    EndsTransfer s t ∨ EndsConversion s t := by
  have same (hs : SameDatapath s t) : t.analog = s.analog := hs.2
  rcases sequencerEdge_next h with ⟨ho, hs⟩ | ⟨-, rfl⟩ | ⟨-, hs⟩ | ⟨hb, -, hs⟩
  · rcases startSelected_next hs with ⟨-, rfl⟩ | ⟨-, rfl⟩ | ⟨ha, hs⟩ | ⟨-, hs⟩ | ⟨ha, hs⟩
    · exact .inl rfl
    · exact .inl rfl
    · have hcnt := initCnt_lt_of_arbitrate_init ha
      exact .inl (same (start_sameDatapath hs fun _ => stepsOf_ne_one_of_initWord hcnt))
    · exact .inl (same (start_sameDatapath hs fun _ => stepsOf_ne_one_of_tickWord :))
    · exact (start_analog hs).imp id fun ⟨hw, hhist⟩ => .inl ⟨⟨ho, ha⟩, hw, hhist⟩
  · refine .inl ?_
    split <;> rfl
  · exact .inl (same (start_sameDatapath hs fun _ => stepsOf_ne_one_of_tickWord :))
  · exact (stepInProgress_analog hinv hb hs).imp id .inr

/-- The history after a write of entry m. -/
theorem get_set_hist (hist : Vector AdcValue 4) {m : Nat} (hm : m < 4) (v : AdcValue) (c : Fin 4) :
    (hist.set m v hm).get c = if m = c.val then v else hist.get c :=
  Vector.getElem_set hm c.isLt

/-- Settles O46: the sequencer has three ways to write `RESULT` and one to write the history, and the other events of an
edge touch neither. -/
theorem resultAndHistoryWriters : Obligations.ResultAndHistoryWriters := by
  intro s t hinv hl h
  obtain ⟨-, -, hseq⟩ := inv_iff.1 hinv
  obtain ⟨u, hu, rfl⟩ := step_next_of_live hl h
  rw [afterEdge_analog]
  rcases sequencerEdge_analog hseq hu with
    e | ⟨⟨ho, ha⟩, hslot, e⟩ | ⟨ho, hop, hk, e⟩ | ⟨ho, hop, hk, ⟨v, ehist⟩, eresult⟩
  · simp [e]
  · exact ⟨fun _ => .inl ⟨ho, ha, hslot⟩, fun c hc => absurd (by rw [e]) hc⟩
  · exact ⟨fun _ => .inr (.inl ⟨ho, hop, hk⟩), fun c hc => absurd (by rw [e]) hc⟩
  · refine ⟨fun hne => .inr (.inr ⟨eresult.resolve_left hne, hop, hk⟩), fun c hc => ⟨ho, hop, hk, ?_⟩⟩
    by_contra hne
    exact hc (by rw [ehist, get_set_hist, if_neg hne])
end Sys2Proof.Machine
end

section
namespace Sys2Proof.Machine

/-! SUPPORT. Runs through cycles that the environment lists; a pending tick on its way to its KEYSAMPLE; O51. -/

/-! ### Calm cycles ahead -/

/-- The cycles k to k + n - 1 of lv are the next ones that the environment lists, without reset and EXT request. -/
structure CalmAhead (lv : Nat → Inputs) (k n : Nat) (s : State) : Prop where
  listed : ∃ rest, comingLevels s = levels lv k n ++ rest
  rstN : ∀ m, k ≤ m → m < k + n → (lv m).rstN = true
  extReq : ∀ m, k ≤ m → m < k + n → (lv m).extReq = false

theorem levels_succ (lv : Nat → Inputs) (k n : Nat) : levels lv k (n + 1) = lv k :: levels lv (k + 1) n := by
  simp [levels, List.range'_succ]

/-- The cycles that the hypothesis `calm` speaks of, numbered from the present one on. -/
theorem calmAhead_of_calm {n : Nat} {s : State} (h : calm n s) :
    CalmAhead (levelsAt (comingLevels s)) 0 n s := by
  obtain ⟨hlen, hquiet⟩ := h
  have hsplit := levels_add (levelsAt (comingLevels s)) 0 n ((comingLevels s).length - n)
  rw [Nat.zero_add, levels_levelsAt (by omega)] at hsplit
  exact ⟨⟨_, hsplit⟩, fun m _ hm => (hquiet m (by omega)).1, fun m _ hm => (hquiet m (by omega)).2⟩

section
variable {lv : Nat → Inputs} {k n : Nat} {s t : State}

/-- The first of the listed cycles is the present one. -/
theorem CalmAhead.pins_and_script (h : CalmAhead lv k (n + 1) s) :
    s.env.pins = lv k ∧ ∃ rest, s.env.script = levels lv (k + 1) n ++ rest := by
  obtain ⟨rest, hlisted⟩ := h.listed
  rw [levels_succ, comingLevels, List.cons_append, List.cons.injEq] at hlisted
  exact ⟨hlisted.1, rest, hlisted.2⟩

theorem CalmAhead.pins (h : CalmAhead lv k (n + 1) s) : s.env.pins = lv k := h.pins_and_script.1

/-- The present one of calm cycles is processed and brings no EXT request. -/
theorem CalmAhead.now (h : CalmAhead lv k (n + 1) s) : s.env.pins.rstN = true ∧ s.env.pins.extReq = false := by
  rw [h.pins]
  exact ⟨h.rstN k (by omega) (by omega), h.extReq k (by omega) (by omega)⟩

/-- An edge leaves one cycle less ahead. -/
theorem CalmAhead.next (h : CalmAhead lv k (n + 1) s) (hstep : step s = .next t) : CalmAhead lv (k + 1) n t := by
  refine ⟨?_, fun m h0 h1 => h.rstN m (by omega) (by omega), fun m h0 h1 => h.extReq m (by omega) (by omega)⟩
  obtain ⟨-, rest, hrest⟩ := h.pins_and_script
  cases hscript : s.env.script with
  | nil =>
    obtain ⟨hnone, -⟩ := List.append_eq_nil_iff.1 (hrest.symm.trans hscript)
    exact ⟨comingLevels t, by rw [hnone, List.nil_append]⟩
  | cons p ps =>
    refine ⟨rest, ?_⟩
    rw [← hrest, hscript, comingLevels, step_env hstep, nextEnv_cons hscript]

/-- Of calm cycles ahead, those that come soonest. -/
theorem CalmAhead.take {m : Nat} (h : CalmAhead lv k (m + n) s) : CalmAhead lv k m s := by
  obtain ⟨rest, hlisted⟩ := h.listed
  rw [levels_add, List.append_assoc] at hlisted
  exact ⟨⟨_, hlisted⟩, fun l h0 h1 => h.rstN l h0 (by omega), fun l h0 h1 => h.extReq l h0 (by omega)⟩

/-- The first edge of a run. -/
theorem runEdges_succ_next {m : Nat} (h : runEdges (m + 1) s = .next t) :
    ∃ u, step s = .next u ∧ runEdges m u = .next t := by
  rw [runEdges] at h
  split at h
  case h_1 u hu => exact ⟨u, hu, h⟩
  all_goals cases h

/-- A run goes on where its beginning ended. -/
theorem runEdges_add {m : Nat} (h : runEdges m s = .next t) : runEdges (m + n) s = runEdges n t := by
  induction m generalizing s with
  | zero =>
    injection h with h
    rw [h, Nat.zero_add]
  | succ m ih =>
    obtain ⟨u, hu, hrest⟩ := runEdges_succ_next h
    rw [Nat.add_right_comm, runEdges_succ hu, ih hrest]

/-- A run of m edges leaves m cycles less ahead. -/
theorem CalmAhead.run {m : Nat} (h : CalmAhead lv k (m + n) s) (hrun : runEdges m s = .next t) :
    CalmAhead lv (k + m) n t := by
  induction m generalizing k s with
  | zero =>
    injection hrun with hrun
    rw [Nat.zero_add] at h
    exact hrun ▸ h
  | succ m ih =>
    obtain ⟨u, hu, hrest⟩ := runEdges_succ_next hrun
    rw [Nat.add_right_comm] at h
    rw [← Nat.add_assoc, Nat.add_right_comm]
    exact ih (h.next hu) hrest

end

/-! ### A pending tick -/

/-- A tick is pending, INIT is done, and EXT does not hold the lines. -/
structure TickWaits (s : State) : Prop where
  inv : Inv s
  initDone : s.seq.initCnt = 4
  pending : s.intake.tickPend = true
  notExt : s.seq.owner ≠ .ext

/-- The sequencer is idle, or runs an ADCREAD that a tick preempts (R103, R195). -/
def TickCanStart (s : State) : Prop := s.seq.owner = .none ∨ preemptCondition s = true

/-- The pending tick can start at once, or after at most n more edges of the operation in progress. -/
def TickDue (n : Nat) (s : State) : Prop :=
  TickCanStart s ∨ ∃ i, decode s.seq.op = .ok i ∧ stepsOf i ≤ s.seq.step.toNat + n

section
variable {s : State}

/-- Where the tick can start, the edge starts its KEYSAMPLE (R103, R195). -/
theorem TickWaits.starts (h : TickWaits s) (hl : live s) (hext : s.env.pins.extReq = false) (hcan : TickCanStart s) :
    ∃ t, step s = .next t ∧ t.seq.owner = .tick ∧ t.seq.op = 0x2000 ∧ t.seq.step = 1 := by
  have hseq : ∃ s', sequencerEdge s = start .tick tickWord s' := by
    rcases hcan with ho | hp
    · have hcnt : 4 ≤ s.seq.initCnt.toNat := by simp [h.initDone]
      exact ⟨_, sequencerEdge_of_arbitrate_tick ho (arbitrate_of_tickPend hext hcnt h.pending)⟩
    · exact ⟨_, sequencerEdge_of_preempt hp⟩
  obtain ⟨s', hseq⟩ := hseq
  obtain ⟨t, hstep, howner, hop, hone, -⟩ := step_of_start_long hl hseq decode_tickWord (show 1 < 20 by decide)
  exact ⟨t, hstep, howner, hop, hone⟩

/-- The operation that a tick waits for is in progress. -/
theorem TickWaits.aboutToRun (h : TickWaits s) (hcan : ¬ TickCanStart s) :
    s.seq.owner.busy = true ∧ preemptCondition s = false ∧ ∃ i, 1 ≤ s.seq.step.toNat ∧ AboutToRun s.seq.op i s := by
  obtain ⟨ho, hp⟩ := not_or.1 hcan
  obtain ⟨-, -, hseq⟩ := inv_iff.1 h.inv
  have hb : s.seq.owner.busy = true := by
    have hext := h.notExt
    cases howner : s.seq.owner with
    | none => exact absurd howner ho
    | ext => exact absurd howner hext
    | init | tick | host => rfl
  exact ⟨hb, by simpa using hp, AboutToRun.of_seqInv hb hseq⟩

/-- INIT is done, so that the operation is the host's or the tick's. -/
theorem TickWaits.owner_ne_init {w : Word} {i : Instr} (h : TickWaits s) (hrun : AboutToRun w i s) :
    s.seq.owner ≠ .init := by
  intro ho
  have hown := hrun.owner
  simp [OwnerRuns, ho, h.initDone] at hown

/-- After the operation's last step the tick can start: the sequencer is idle, or has resumed the ADCREAD that the tick
now preempts (R104, R196). -/
theorem TickWaits.canStart_of_last {i : Instr} {u : State} (h : TickWaits s) (hrun : AboutToRun s.seq.op i s)
    (hlast : s.seq.step.toNat + 1 = stepsOf i) (hu : exec i s = .next u) :
    TickCanStart (afterEdge s u) ∧ u.seq.initCnt = 4 ∧ u.seq.owner ≠ .ext := by
  obtain ⟨u', hu', hcfg, hintake, -, -, hend⟩ := microStepThenBookkeeping i s hrun.hasStep
  obtain rfl : u' = u := by simpa [hu'] using hu
  obtain ⟨-, hresume, hidle⟩ := hend hlast
  by_cases hs : s.seq.owner = .tick ∧ s.suspended = true
  · obtain ⟨-, -, -, -, ⟨-, hvalid, -⟩, -⟩ := h.inv
    obtain ⟨hng, hv⟩ : s.cfg.adcGuarded = false ∧ s.susp.valid = true := by simpa [State.suspended] using hs.2
    obtain ⟨-, hsown, hsop, -⟩ := hvalid hv
    obtain ⟨howner, -, hop, -, -, hcnt, hfree⟩ := hresume hs.1 hs.2
    refine ⟨.inr ((preemptCondition_iff_registers _).2 ⟨?_, ?_, ?_, ?_, ?_⟩), by rw [hcnt, h.initDone], ?_⟩
    · rw [afterEdge_cfg, hcfg, hng]
    · rw [afterEdge_seq, howner, hsown]
    · rw [afterEdge_seq, hop, hsop]
    · rw [afterEdge_susp, hfree]
    · rw [afterEdge_tickPend, hintake, h.pending, Bool.or_true]
    · simp [howner, hsown]
  · obtain ⟨howner, -, -, hcnt, -⟩ := hidle (h.owner_ne_init hrun) hs
    exact ⟨.inl (by rw [afterEdge_seq, howner]), by rw [hcnt, h.initDone], by simp [howner]⟩

/-- An edge at which the tick cannot start brings it one edge nearer. -/
theorem TickWaits.next {n : Nat} (h : TickWaits s) (hl : live s) (hcan : ¬ TickCanStart s) (hdue : TickDue n s) :
    ∃ t m, n = m + 1 ∧ step s = .next t ∧ TickWaits t ∧ TickDue m t := by
  obtain ⟨hb, hp, i, -, hrun⟩ := h.aboutToRun hcan
  obtain ⟨j, hd, hn⟩ := hdue.resolve_left hcan
  obtain rfl : j = i := by simpa [hd] using hrun.decoded
  have hlt := hrun.hasStep
  obtain ⟨m, rfl⟩ : ∃ m, n = m + 1 := ⟨n - 1, by omega⟩
  obtain ⟨u, hu, -, hintake, -, hmid, -⟩ := microStepThenBookkeeping j s hlt
  have hstep : step s = .next (afterEdge s u) := by
    refine step_of_sequencerEdge hl ?_
    rw [sequencerEdge_of_busy hb hp, stepInProgress, hd]
    exact hu
  have hpend : (afterEdge s u).intake.tickPend = true := by
    rw [afterEdge_tickPend, hintake, h.pending, Bool.or_true]
  have hinv := stepKeepsTheInvariant s _ h.inv hstep
  refine ⟨_, m, rfl, hstep, ?_⟩
  rcases Nat.eq_or_lt_of_le hlt with hlast | hmore
  · obtain ⟨hready, hcnt, hext⟩ := h.canStart_of_last hrun hlast hu
    exact ⟨⟨hinv, by rwa [afterEdge_seq], hpend, by rwa [afterEdge_seq]⟩, .inl hready⟩
  · obtain ⟨howner, hop, hk, hcnt, -⟩ := hmid hmore
    refine ⟨⟨hinv, by rw [afterEdge_seq, hcnt, h.initDone], hpend, by rw [afterEdge_seq, howner]; exact h.notExt⟩,
      .inr ⟨j, ?_, ?_⟩⟩
    · rw [afterEdge_seq, hop, hd]
    · rw [afterEdge_seq, hk]
      omega

/-- A tick that is due within n edges starts within n + 1. -/
theorem TickWaits.starts_within {lv : Nat → Inputs} {k n : Nat} (h : TickWaits s) (hdue : TickDue n s)
    (hcalm : CalmAhead lv k (n + 1) s) :
    ∃ m t, 1 ≤ m ∧ m ≤ n + 1 ∧ runEdges m s = .next t ∧ t.seq.owner = .tick ∧ t.seq.op = 0x2000 ∧ t.seq.step = 1 := by
  induction n using Nat.strong_induction_on generalizing s k with
  | _ n ih =>
    obtain ⟨hr, hext⟩ := hcalm.now
    have hl : live s := ⟨h.inv.1, hr⟩
    by_cases hcan : TickCanStart s
    · obtain ⟨t, hstep, ht⟩ := h.starts hl hext hcan
      exact ⟨1, t, le_rfl, by omega, runEdges_succ hstep, ht⟩
    · obtain ⟨u, m, rfl, hstep, hw, hdue'⟩ := h.next hl hcan hdue
      obtain ⟨l, t, -, hle, hrun, ht⟩ := ih m (by omega) hw hdue' (hcalm.next hstep)
      exact ⟨l + 1, t, by omega, by omega, (runEdges_succ hstep).trans hrun, ht⟩

/-- The longest wait: ADCREAD has 74 steps left at most, and where it is preempted LEDWRITE's 26 are the most
(R197, R252). -/
theorem TickWaits.due (h : TickWaits s) : TickDue (if s.cfg.adcGuarded then 74 else 26) s := by
  by_cases hcan : TickCanStart s
  · exact .inl hcan
  obtain ⟨-, hp, i, h1, hrun⟩ := h.aboutToRun hcan
  refine .inr ⟨i, hrun.decoded, ?_⟩
  split_ifs with hg
  · have := stepsOf_le i
    omega
  · have hlong : stepsOf i ≤ 27 := by
      cases i with
      | nop | record _ | keysample | dbread | updedge | ledwrite _ | xfer _ => simp [stepsOf]
      | adcread c =>
        have ho : s.seq.owner = .host := by simpa [h.owner_ne_init hrun] using hrun.owner_cases
        have hop : opcOf s.seq.op = 0x6 := by
          rw [← encode_of_decode hrun.decoded]
          exact opcOf_encode_eq_six.2 ⟨c, rfl⟩
        have hv : s.susp.valid = false := by
          rw [← Bool.not_eq_true]
          intro hv
          have htick := (hrun.of_suspended hv).1
          simp [ho] at htick
        have hpre := (preemptCondition_iff_registers s).2 ⟨by simpa using hg, ho, hop, hv, h.pending⟩
        simp [hp] at hpre
    omega

end

/-- Settles O51: an edge that does not start the pending tick is a step of the operation it waits for. -/
theorem pendingTickStartsInTime : Obligations.PendingTickStartsInTime := by
  intro s hinv hcnt hpend hext hcalm
  have hw : TickWaits s := ⟨hinv, hcnt, hpend, hext⟩
  have hbound : (if s.cfg.adcGuarded then 75 else 27) = (if s.cfg.adcGuarded then 74 else 26) + 1 := by
    split <;> rfl
  rw [hbound] at hcalm ⊢
  exact hw.starts_within hw.due (calmAhead_of_calm hcalm)

end Sys2Proof.Machine
end

section
namespace Sys2Proof.Machine

/-! SUPPORT. INIT's conversions: the edges of an ADCREAD of INIT are its micro-steps, whatever the intake does meanwhile,
and four of them follow one another; O50. -/

/-! ### An ADCREAD amid the events of the edges -/

/-- s with another intake and environment, and w in `OP`: what the other events of an edge and the start of an operation
write beside the operation itself. -/
def amid (I : Intake) (e : Env) (w : Word) (s : State) : State :=
  { s with intake := I, env := e, seq := { s.seq with op := w } }

section
variable (I : Intake) (e : Env) (w : Word) (s : State)
@[simp] theorem amid_cfg : (amid I e w s).cfg = s.cfg := rfl
@[simp] theorem amid_deb : (amid I e w s).deb = s.deb := rfl
@[simp] theorem amid_seq : (amid I e w s).seq = { s.seq with op := w } := rfl
@[simp] theorem amid_intake : (amid I e w s).intake = I := rfl
@[simp] theorem amid_susp : (amid I e w s).susp = s.susp := rfl
@[simp] theorem amid_analog : (amid I e w s).analog = s.analog := rfl
@[simp] theorem amid_env : (amid I e w s).env = e := rfl
end

/-- An edge replaces the intake and the environment once more. -/
theorem afterEdge_amid (b : State) (I : Intake) (e : Env) (w : Word) (s : State) :
    ∃ I', afterEdge b (amid I e w s) = amid I' (nextEnv e) w s ∧ I'.err = I.err := by
  refine ⟨(afterEdge b (amid I e w s)).intake, ?_, afterEdge_err ..⟩
  unfold afterEdge captureTick takeCommand
  split_ifs <;> rfl

section
variable {I : Intake} {e : Env} {w : Word} {s : State}

theorem xchg_amid (b : Byte) (k : Nat) (hpins : e.pins = s.env.pins) :
    xchg b k (amid I e w s) = amid I e w (xchg b k s) := by
  have hrec : received (amid I e w s) = received s := by simp [received, hpins]
  unfold xchg
  rw [hrec]
  split_ifs <;> rfl

/-- The last step, with no draw in it (R171). -/
theorem adcFinal_amid (c : Channel) (hc : s.corrupt = false) :
    adcFinal c (amid I e w s) = amid I e w (adcFinal c s) := by
  rw [adcFinal_of_not_corrupt c hc, adcFinal_of_not_corrupt (s := amid I e w s) c hc]
  rfl

/-- An uncorrupted ADCREAD reads neither the intake nor `OP`, and of the environment only the present levels. -/
theorem adcreadStep_amid (c : Channel) (k : Nat) (hpins : e.pins = s.env.pins) (hc : s.corrupt = false) :
    adcreadStep c k (amid I e w s) = amid I e w (adcreadStep c k s) := by
  have hrec : received (amid I e w s) = received s := by simp [received, hpins]
  unfold adcreadStep
  simp only [amid_cfg, xchg_amid _ _ hpins, hrec, adcFinal_amid c hc]
  split_ifs <;> rfl

theorem finish_amid (ho : s.seq.owner = .init) : finish (amid I e w s) = amid I e w (finish s) := by
  rw [finish_of_host_or_init (.inr ho), finish_of_host_or_init (s := amid I e w s) (.inr ho)]
  rfl

theorem advance_amid (n : Nat) (ho : s.seq.owner = .init) : advance n (amid I e w s) = amid I e w (advance n s) := by
  unfold advance
  rw [finish_amid ho]
  exact (apply_ite (amid I e w) (s.seq.step.toNat + 1 = n) (finish s) (s.setStep (s.seq.step + 1))).symm

theorem exec_adcread_amid (c : Channel) (hpins : e.pins = s.env.pins) (ho : s.seq.owner = .init)
    (hc : s.corrupt = false) :
    exec (.adcread c) (amid I e w s) = mapNext (amid I e w) (exec (.adcread c) s) := by
  have howner : (microBody (.adcread c) s.seq.step.toNat s).seq.owner = .init := by rw [microBody_owner, ho]
  have hbody : microBody (.adcread c) s.seq.step.toNat (amid I e w s) =
      amid I e w (microBody (.adcread c) s.seq.step.toNat s) := adcreadStep_amid c _ hpins hc
  rw [exec_eq_runMicro, exec_eq_runMicro]
  unfold runMicro
  rw [amid_seq, hbody, advance_amid _ howner]
  split_ifs <;> rfl

/-- An edge of INIT's ADCREAD is its micro-step on the present levels: nothing preempts it (R194). -/
theorem step_amid {c : Channel} {v : State} (hl : live (amid I e w s)) (hd : decode w = .ok (.adcread c))
    (ho : s.seq.owner = .init) (hc : s.corrupt = false) (hv : exec (.adcread c) (withLevels e.pins s) = .next v) :
    ∃ I', step (amid I e w s) = .next (amid I' (nextEnv e) w v) ∧ I'.err = I.err := by
  obtain ⟨I', hafter, herr⟩ := afterEdge_amid (amid I e w s) I e w v
  refine ⟨I', ?_, herr⟩
  have hexec : exec (.adcread c) (amid I e w s) = .next (amid I e w v) := by
    have h := exec_adcread_amid (I := I) (e := e) (w := w) (s := withLevels e.pins s) c rfl ho hc
    rw [hv] at h
    exact h
  have hseq : sequencerEdge (amid I e w s) = .next (amid I e w v) := by
    have hstep : stepInProgress (amid I e w s) = exec (.adcread c) (amid I e w s) := by
      unfold stepInProgress
      rw [amid_seq, hd]
    rw [sequencerEdge_of_busy (by simp [ho, Owner.busy]) (preemptCondition_of_owner_ne (by simp [ho])), hstep, hexec]
  rw [step_of_sequencerEdge hl hseq, hafter]

end

/-! ### A run of edges as an operation -/

/-- INIT runs an uncorrupted ADCREAD that has at least n steps left. -/
structure InitConverting (n : Nat) (s : State) : Prop where
  owner : s.seq.owner = .init
  notCorrupt : s.corrupt = false
  left : s.seq.step.toNat + n ≤ 75

theorem InitConverting.next {c : Channel} {n : Nat} {p : Inputs} {s v : State} (h : InitConverting (n + 1) s)
    (hv : exec (.adcread c) (withLevels p s) = .next v) : v.cfg = s.cfg ∧ (n = 0 ∨ InitConverting n v) := by
  have hleft := h.left
  obtain ⟨v', hv', hcfg, -, -, hmid, -⟩ := microStepThenBookkeeping (.adcread c) (withLevels p s)
    (show s.seq.step.toNat < 75 by omega)
  obtain rfl : v' = v := by simpa [hv'] using hv
  refine ⟨hcfg, ?_⟩
  rcases Nat.eq_zero_or_pos n with h0 | hpos
  · exact .inl h0
  · obtain ⟨howner, -, hk, -, hsusp⟩ := hmid (show s.seq.step.toNat + 1 < 75 by omega)
    have hk' : v'.seq.step.toNat = s.seq.step.toNat + 1 := hk
    refine .inr ⟨howner.trans h.owner, ?_, by omega⟩
    have hc := h.notCorrupt
    simp only [State.corrupt] at hc ⊢
    rw [hcfg, hsusp]
    exact hc

/-- A micro-step that a run of an operation begins with. -/
theorem runOp_cons {i : Instr} {p : Inputs} {ps : List Inputs} {s u : State} (h : runOp i (p :: ps) s = .next u) :
    ∃ v, exec i (withLevels p s) = .next v ∧ runOp i ps v = .next u := by
  rw [runOp] at h
  split at h
  case h_1 v hv => exact ⟨v, hv, h⟩
  all_goals cases h

/-- Through calm cycles the edges of INIT's ADCREAD do what its micro-steps do on the levels of these cycles. -/
theorem runEdges_of_runOp {c : Channel} {lv : Nat → Inputs} {k n : Nat} {I : Intake} {e : Env} {w : Word} {s u : State}
    (hd : decode w = .ok (.adcread c)) (hlegal : s.cfg.legal = true) (hcalm : CalmAhead lv k n (amid I e w s))
    (hconv : n = 0 ∨ InitConverting n s) (hrun : runOp (.adcread c) (levels lv k n) s = .next u) :
    ∃ I' e', runEdges n (amid I e w s) = .next (amid I' e' w u) ∧ I'.err = I.err := by
  induction n generalizing k I e s with
  | zero =>
    injection hrun with hrun
    exact ⟨I, e, by rw [hrun]; rfl, rfl⟩
  | succ n ih =>
    replace hconv := hconv.resolve_left n.succ_ne_zero
    rw [levels_succ] at hrun
    obtain ⟨v, hv, hrest⟩ := runOp_cons hrun
    obtain ⟨hcfg, hconv'⟩ := hconv.next hv
    have hpins : e.pins = lv k := hcalm.pins
    rw [← hpins] at hv
    obtain ⟨I₁, hstep, herr₁⟩ := step_amid (I := I) ⟨hlegal, hcalm.now.1⟩ hd hconv.owner hconv.notCorrupt hv
    obtain ⟨I', e', hedges, herr⟩ := ih (by rwa [hcfg]) (hcalm.next hstep) hconv' hrest
    exact ⟨I', e', (runEdges_succ hstep).trans hedges, herr.trans herr₁⟩

/-! ### One conversion of INIT -/

/-- v is the value of a conversion whose micro-steps have the levels lv from k on: the third response in bits [7:0], the
last three bits of the second in [10:8] (R172). -/
def Converts (lv : Nat → Inputs) (k : Nat) (v : AdcValue) : Prop :=
  (∀ j, j < 8 → v.getLsbD (7 - j) = (lv (k + 50 + 3 * j + 2)).sdi) ∧
    ∀ j, 5 ≤ j → j < 8 → v.getLsbD (15 - j) = (lv (k + 26 + 3 * j + 2)).sdi

theorem levelsAt_levels {lv : Nat → Inputs} {k m n : Nat} (h : m < n) : levelsAt (levels lv k n) m = lv (k + m) := by
  simp [levelsAt, levels, h]

/-- INIT's word names the channel `INIT_CNT` (R74). -/
theorem toNat_initChannel {cnt : BitVec 3} (h : cnt.toNat < 4) : (cnt.setWidth 2).toNat = cnt.toNat := by
  rw [BitVec.toNat_setWidth]
  exact Nat.mod_eq_of_lt h

/-- The edge that starts an ADCREAD of INIT is its micro-step 0 (R103). -/
theorem step_of_arbitrate_init {s v : State} (hl : live s) (ho : s.seq.owner = .none) (ha : arbitrate s = .init)
    (hv : exec (.adcread (s.seq.initCnt.setWidth 2)) ((s.setOwner .init).setStep 0) = .next v) :
    ∃ I, step s = .next (amid I (nextEnv s.env) (initWord s.seq.initCnt) v) ∧ I.err = s.intake.err := by
  have hd := decode_initWord _ (initCnt_lt_of_arbitrate_init ha)
  have hintake : v.intake = s.intake := (exec_intake hv :)
  have henv : v.env = s.env := (exec_env hv :)
  obtain ⟨I, hafter, herr⟩ := afterEdge_amid s v.intake v.env (initWord s.seq.initCnt) v
  refine ⟨I, ?_, by rw [herr, hintake]⟩
  rw [step_of_start hl hd (sequencerEdge_of_arbitrate_init ho ha), hv, ← henv, ← hafter]
  rfl

/-- The 75 edges from an idle block on in which INIT converts are the whole ADCREAD. -/
theorem runEdges_of_runOp_init {lv : Nat → Inputs} {k : Nat} {s u : State} (hlegal : s.cfg.legal = true)
    (ho : s.seq.owner = .none) (hcnt : s.seq.initCnt.toNat < 4) (hc : s.corrupt = false) (hcalm : CalmAhead lv k 75 s)
    (hrun : runOp (.adcread (s.seq.initCnt.setWidth 2)) (levels lv k 75) ((s.setOwner .init).setStep 0) = .next u) :
    ∃ I e, runEdges 75 s = .next (amid I e (initWord s.seq.initCnt) u) ∧ I.err = s.intake.err := by
  have hpins : withLevels (lv k) ((s.setOwner .init).setStep 0) = (s.setOwner .init).setStep 0 := by
    rw [← hcalm.pins]
    rfl
  rw [levels_succ] at hrun
  obtain ⟨v, hv, hrest⟩ := runOp_cons hrun
  obtain ⟨hcfg, hconv⟩ := InitConverting.next (n := 74) (s := (s.setOwner .init).setStep 0) ⟨rfl, hc, le_rfl⟩ hv
  rw [hpins] at hv
  have ha := arbitrate_of_initCnt_lt hcalm.now.2 hcnt
  obtain ⟨I, hstep, herr⟩ := step_of_arbitrate_init ⟨hlegal, hcalm.now.1⟩ ho ha hv
  obtain ⟨I', e', hedges, herr'⟩ := runEdges_of_runOp (decode_initWord _ hcnt) (by rw [hcfg]; exact hlegal)
    (hcalm.next hstep) hconv hrest
  exact ⟨I', e', (runEdges_succ hstep).trans hedges, herr'.trans herr⟩

/-- What the 75 edges of a conversion of INIT lead to, from an idle block s with nothing corrupted, v being its value. -/
structure InitConverted (s : State) (v : AdcValue) (t : State) : Prop where
  cfg : t.cfg = s.cfg
  deb : t.deb = s.deb
  susp : t.susp = s.susp
  owner : t.seq.owner = .none
  initCnt : t.seq.initCnt = s.seq.initCnt + 1
  err : t.intake.err = s.intake.err
  result : t.analog.result = s.analog.result
  hist : ∀ ch : Fin 4, t.analog.hist.get ch = if s.seq.initCnt.toNat = ch.val then v else s.analog.hist.get ch

/-- A conversion of INIT reads its channel from the levels of its cycles (R171, R241). -/
theorem init_converts {lv : Nat → Inputs} {k : Nat} {s : State} (hlegal : s.cfg.legal = true)
    (ho : s.seq.owner = .none) (hcnt : s.seq.initCnt.toNat < 4) (hc : s.corrupt = false)
    (hcalm : CalmAhead lv k 75 s) :
    ∃ t v, runEdges 75 s = .next t ∧ InitConverted s v t ∧ Converts lv k v := by
  obtain ⟨u, v, hrun, hlow, hhigh, hanalog, -, -, -, howner, -, -, -, hinit, hdeb, -, hsusp, hcfg⟩ :=
    adcreadConvertsTheResponses (s.seq.initCnt.setWidth 2) ((s.setOwner .init).setStep 0) (levels lv k 75) rfl
      (by simp [levels]) (.inr rfl) hc
  obtain ⟨I, e, hedges, herr⟩ := runEdges_of_runOp_init hlegal ho hcnt hc hcalm hrun
  refine ⟨_, v, hedges, ⟨hcfg, hdeb, hsusp, howner, hinit, herr, ?_, fun ch => ?_⟩, fun j hj => ?_, fun j h5 hj => ?_⟩
  · rw [amid_analog, hanalog]
    rfl
  · rw [amid_analog, hanalog, get_set_hist, toNat_initChannel hcnt]
    rfl
  · rw [hlow j hj, levelsAt_levels (by omega)]
    simp only [Nat.add_assoc]
  · rw [hhigh j h5 hj, levelsAt_levels (by omega)]
    simp only [Nat.add_assoc]

/-! ### The four conversions -/

/-- The block built with c, n of its power-up conversions done, channel ch in the cycles from 75 ch on. -/
structure InitDone (c : Config) (lv : Nat → Inputs) (n : Nat) (s : State) : Prop where
  cfg : s.cfg = c
  deb : s.deb = .reset c
  susp : s.susp = .reset
  owner : s.seq.owner = .none
  initCnt : s.seq.initCnt.toNat = n
  err : s.intake.err = false
  result : s.analog.result = 0
  hist : ∀ ch : Fin 4, ch.val < n → Converts lv (75 * ch.val) (s.analog.hist.get ch)

theorem initDone_resetWith (c : Config) (lv : Nat → Inputs) (e : Env) : InitDone c lv 0 (.resetWith c e) :=
  ⟨rfl, rfl, rfl, rfl, rfl, rfl, rfl, fun _ h => absurd h (Nat.not_lt_zero _)⟩

theorem InitDone.next {c : Config} {lv : Nat → Inputs} {n : Nat} {s : State} (h : InitDone c lv n s)
    (hlegal : c.legal = true) (hn : n < 4) (hcalm : CalmAhead lv (75 * n) 75 s) :
    ∃ t, runEdges 75 s = .next t ∧ InitDone c lv (n + 1) t := by
  have hcnt := h.initCnt
  have hc : s.corrupt = false := by simp [State.corrupt, h.susp, Suspended.reset]
  obtain ⟨t, v, hrun, ht, hv⟩ := init_converts (by rwa [h.cfg]) h.owner (by omega) hc hcalm
  refine ⟨t, hrun, ht.cfg.trans h.cfg, ht.deb.trans h.deb, ht.susp.trans h.susp, ht.owner, ?_, ht.err.trans h.err,
    ht.result.trans h.result, fun ch hlt => ?_⟩
  · rw [ht.initCnt]
    bv_omega
  · rw [ht.hist ch, hcnt]
    split_ifs with he
    · rwa [← he]
    · exact h.hist ch (by omega)

/-- The conversions left to do follow one another. -/
theorem InitDone.run {c : Config} {lv : Nat → Inputs} {m n : Nat} {s : State} (h : InitDone c lv n s)
    (hlegal : c.legal = true) (hmn : n + m = 4) (hcalm : CalmAhead lv (75 * n) (75 * m) s) :
    ∃ t, runEdges (75 * m) s = .next t ∧ InitDone c lv 4 t := by
  induction m generalizing n s with
  | zero => exact ⟨s, rfl, hmn ▸ h⟩
  | succ m ih =>
    rw [Nat.mul_succ, Nat.add_comm] at hcalm ⊢
    obtain ⟨u, hu, hdone⟩ := h.next hlegal (by omega) hcalm.take
    obtain ⟨t, ht, hall⟩ := ih hdone (by omega) (hcalm.run hu)
    exact ⟨t, (runEdges_add hu).trans ht, hall⟩

/-- Settles O50: four conversions of 75 edges each from the reset state. -/
theorem initConvertsTheFourChannels : Obligations.InitConvertsTheFourChannels := by
  intro c e hlegal hcalm
  obtain ⟨t, hrun, h⟩ := (initDone_resetWith c _ e).run (m := 4) hlegal rfl (calmAhead_of_calm hcalm)
  exact ⟨t, hrun, h.owner, BitVec.eq_of_toNat_eq h.initCnt, h.result, h.deb, h.err,
    fun ch => h.hist ch ch.isLt⟩

end Sys2Proof.Machine
end
